-- ==== Sys2Proof/Word.lean ====
section
/-! DEFINITION. The words the block moves: 32-bit registers, bytes, and the 16-bit complement frequency. -/

namespace Sys2Proof

/-- A 32-bit register, count, cumulative entry, command or bus word (00_scope.md R9). -/
abbrev Word := BitVec 32

/-- A byte of WMEM or of the LUT, a symbol, an opcode. -/
abbrev Byte := BitVec 8

/-- The width of a descriptor's complement frequency (10_state.md R43). -/
abbrev Half := BitVec 16

end Sys2Proof
end

