-- ==== Sys2Proof/Syntax.lean ====
section
/-! DEFINITION. The commands of the block (30_encoding.md R95), and what the outside world can do to it
(45_control.md R221): host accesses and reset. -/

namespace Sys2Proof

/-- The sixteen commands, one constructor for each row of the opcode table. Every operand but ENCPUT's symbol comes
from ARG0-ARG3 as latched at acceptance (30_encoding.md R90, R93). -/
inductive Instr where
  | nop
  | count
  | norm
  | symtab
  | lutgen
  | encinit
  /-- The symbol is IMM8 of the command word (30_encoding.md R92). -/
  | encput (sym : Byte)
  | encflush
  | decinit
  | decget
  | encode
  | decode
  | expand
  | pack
  | stcnt
  | ldcnt
deriving DecidableEq, Repr

/-- The width of one host bus access (20_memory.md R66, R67). -/
inductive Width where
  | w8
  | w16
  | w32
deriving DecidableEq, Repr

/-- One host bus access at an offset from the block's base (20_memory.md R60). A narrow write stores the low bits of
its value. -/
inductive Access where
  | read (w : Width) (off : Nat)
  | write (w : Width) (off : Nat) (v : Word)
deriving DecidableEq, Repr

/-- The host-space registers, in the order of 20_memory.md R61. -/
inductive HostReg where
  | id
  | version
  | paramProbbits
  | paramLower
  | paramWmemsize
  | paramNsym
  | cmd
  | status
  | ctrl
  | finfo
  | arg0
  | arg1
  | arg2
  | arg3
  | state
  | wptr
  | wend
  | wlim
  | rptr
  | rlim
  | result
  | total
  | outlen
  | fop
deriving DecidableEq, Repr

/-- What a host-space offset names (20_memory.md R61 to R64). -/
inductive Place where
  | reg (r : HostReg)
  | cnt (i : Nat)
  | cum (i : Nat)
  /-- Word 0 (THR), 1 (RCP), 2 (BIAS) or 3 (SHIFT and CMPL) of descriptor i. -/
  | symtab (i word : Nat)
  | lut (k : Nat)
  | wmem (a : Nat)
  | reserved
  | outside
deriving DecidableEq, Repr

/-- What happens next to the block. -/
inductive Event where
  /-- The host makes a bus access. -/
  | access (a : Access)
  /-- The engine takes its step (45_control.md R212); with no command pending nothing happens. -/
  | engine
  /-- The platform pulses reset (70_reset_and_hazards.md R290). -/
  | reset
deriving DecidableEq, Repr

end Sys2Proof
end

