-- ==== Sys2Proof/WellFormed.lean ====
section
/-! DEFINITION. Well-formedness (30_encoding.md R94). An `Instr` is well-formed by its type: ENCPUT's symbol is a
byte and no other command has a field. What can be ill-formed is a command WORD, by one of three checks. -/

namespace Sys2Proof

/-- OP = CMD[7:0] (30_encoding.md R91). -/
def opField (w : Word) : Byte := w.extractLsb' 0 8

/-- IMM8 = CMD[15:8] (30_encoding.md R92). -/
def immField (w : Word) : Byte := w.extractLsb' 8 8

/-- RSVD = CMD[31:16] (30_encoding.md R90). -/
def rsvdField (w : Word) : Half := w.extractLsb' 16 16

/-- R94: "OP <= 0x0F". -/
def opDefined (w : Word) : Bool := decide ((opField w).toNat ≤ 0x0F)

/-- R94: "RSVD = 0". -/
def rsvdZero (w : Word) : Bool := rsvdField w == 0

/-- R94: "IMM8 = 0 unless OP = 0x06 (ENCPUT)". -/
def immAllowed (w : Word) : Bool := opField w == 0x06 || immField w == 0

/-- R94: a command word is well-formed when all three checks hold. -/
def wordWellFormed (w : Word) : Bool := opDefined w && rsvdZero w && immAllowed w

end Sys2Proof
end

