-- ==== Sys2Proof/Decode.lean ====
section
/-! DEFINITION. The decoder, total on every 32-bit word and rejecting by name (30_encoding.md R94-R97), and after it
the encoder, written from the same table. -/

namespace Sys2Proof

/-- Why a command word spells no command (30_encoding.md R96). -/
inductive BadWord where
  /-- An opcode 0x10-0xFF. -/
  | opcode
  /-- RSVD is not 0. -/
  | rsvd
  /-- IMM8 is not 0 and OP is not 0x06. -/
  | imm
deriving DecidableEq, Repr

/-- The opcode map of 30_encoding.md R95, from OP and IMM8. -/
def decodeOp (op imm : Byte) : Option Instr :=
  match op.toNat with
  | 0x00 => some .nop
  | 0x01 => some .count
  | 0x02 => some .norm
  | 0x03 => some .symtab
  | 0x04 => some .lutgen
  | 0x05 => some .encinit
  | 0x06 => some (.encput imm)
  | 0x07 => some .encflush
  | 0x08 => some .decinit
  | 0x09 => some .decget
  | 0x0A => some .encode
  | 0x0B => some .decode
  | 0x0C => some .expand
  | 0x0D => some .pack
  | 0x0E => some .stcnt
  | 0x0F => some .ldcnt
  | _ => none

/-- 30_encoding.md R97: every 32-bit value is either exactly one command with its fields or malformed. Nothing but
the word is looked at. -/
def decodeWord (w : Word) : Except BadWord Instr :=
  if rsvdZero w = false then .error .rsvd
  else if immAllowed w = false then .error .imm
  else
    match decodeOp (opField w) (immField w) with
    | some i => .ok i
    | none => .error .opcode

/-- The decoder on a row of spec/opcode_table.json: the row's bits as a number. There is one command length, one 32-bit
word (30_encoding.md R98), so a row of any other length, or bits beyond the word, spell nothing. -/
def decodeTableWord (nbits w : Nat) : Option Instr :=
  if nbits = 32 ∧ w < 2 ^ 32 then
    match decodeWord (BitVec.ofNat 32 w) with
    | .ok i => some i
    | .error _ => none
  else none

/-- OP of a command (30_encoding.md R95). -/
def opcodeOf (i : Instr) : Byte :=
  match i with
  | .nop => 0x00
  | .count => 0x01
  | .norm => 0x02
  | .symtab => 0x03
  | .lutgen => 0x04
  | .encinit => 0x05
  | .encput _ => 0x06
  | .encflush => 0x07
  | .decinit => 0x08
  | .decget => 0x09
  | .encode => 0x0A
  | .decode => 0x0B
  | .expand => 0x0C
  | .pack => 0x0D
  | .stcnt => 0x0E
  | .ldcnt => 0x0F

/-- IMM8 of a command (30_encoding.md R92, R93): ENCPUT's symbol, 0 for every other. -/
def immOf (i : Instr) : Byte :=
  match i with
  | .encput sym => sym
  | .nop | .count | .norm | .symtab | .lutgen | .encinit | .encflush | .decinit | .decget | .encode | .decode
  | .expand | .pack | .stcnt | .ldcnt => 0

/-- The command word of a command: RSVD || IMM8 || OP, RSVD = 0 (30_encoding.md R90). -/
def encodeWord (i : Instr) : Word := (0 : Half) ++ immOf i ++ opcodeOf i

end Sys2Proof
end

