-- ==== Sys2Proof/Config.lean ====
section
/-! DEFINITION. What an implementation fixes: the constants of 00_scope.md, the two parameters a model takes as an
argument, and the one uninterpreted source of every value the spec leaves unspecified. -/

namespace Sys2Proof

/-- PACK_BIT_ORDER (00_scope.md R11): which bit of a byte EXPAND and PACK take first. -/
inductive BitOrder where
  | lsbFirst
  | msbFirst
deriving DecidableEq, Repr

/-- The open parameters of the block. State carries them, so that every statement about a state is a statement about
every parameter value (R10: "The model takes it as an argument"; log 5). -/
structure Params where
  /-- WMEM_SIZE (00_scope.md R10). -/
  wmemSize : Nat
  /-- PACK_BIT_ORDER (00_scope.md R11). -/
  bitOrder : BitOrder
deriving DecidableEq, Repr

/-- 00_scope.md R10: WMEM_SIZE is an integer with 2^12 <= WMEM_SIZE <= 2^30. -/
def Params.legal (p : Params) : Bool :=
  decide (2 ^ 12 ≤ p.wmemSize) && decide (p.wmemSize ≤ 2 ^ 30)

namespace Config

/-- PROBBITS (00_scope.md R5). -/
abbrev probBits : Nat := 14

/-- SCALE = 2^PROBBITS, to which every normalized table sums (00_scope.md R5). -/
abbrev scale : Nat := 16384

/-- MASK = SCALE - 1 (00_scope.md R5). -/
abbrev mask : Nat := 16383

/-- LOWER, the coder's minimum-state constant (00_scope.md R6). -/
abbrev lower : Nat := 8388608

/-- NSYM, the size of the byte alphabet (00_scope.md R8). -/
abbrev nsym : Nat := 256

/-- THRESHOLD_UNIT = (LOWER >> PROBBITS) << 8 (00_scope.md, parameter table; 90_conflicts.md C1). -/
abbrev thresholdUnit : Nat := 131072

/-- Where the parameters stand in the state after reset: the values of every vector of 95_test_vectors.md and the
default bit order of R11 (DESIGN CHOICE, log 5). -/
def defaultParams : Params := ⟨1048576, .lsbFirst⟩

/-- What a draw of an unspecified value is for: two draws for different places are unrelated. -/
inductive DrawSite where
  | cnt
  | cum
  | thr
  | rcp
  | bias
  | cmpl
  | shift
  | lut
  | wmem
  | total
  | state
  | wptr
  | wend
  | wlim
  | rptr
  | rlim
  | result
  | busRead
deriving DecidableEq, Repr

/-- FREE VALUE (log 7): the value the spec leaves unspecified at draw number `n`, for the place `site`, entry `idx`
(10_state.md R49, 20_memory.md R72, 60_exceptions.md R269: "a model draws the value, under no law"). It has no body:
nothing can evaluate it, so whatever is proved holds of every value. -/
opaque freeValue (n : Nat) (site : DrawSite) (idx : Nat) : Word

end Config

end Sys2Proof
end

