-- ==== Sys2Proof/Machine/Tables.lean ====
section
/-! DEFINITION. The block's table memories as fixed-length vectors: building one from a rule for its entries, and
reading an entry by number (00_scope.md R13, `T[i]`). -/

namespace Sys2Proof.Machine

/-- The table of `n` entries whose entry `i` is `f i`. -/
def tabulate {α : Type} (n : Nat) (f : Nat → α) : Vector α n :=
  ⟨((List.range n).map f).toArray, by simp⟩

/-- The table whose entries are those of the list, in order. -/
def tableOf {α : Type} {n : Nat} (l : List α) (h : l.length = n) : Vector α n := ⟨l.toArray, by simpa using h⟩

/-- The table with every entry mapped. -/
def mapTable {α β : Type} {n : Nat} (f : α → β) (v : Vector α n) : Vector β n := tableOf (v.toList.map f) (by simp)

/-- The adjacent pairs (v[0], v[1]), (v[1], v[2]), ... of a table: the interval ends of a cumulative table. -/
def intervals {α : Type} {n : Nat} (v : Vector α (n + 1)) : List (α × α) := v.toList.zip v.toList.tail

/-- A cumulative table of n + 1 entries has n intervals. -/
theorem intervals_length {α : Type} {n : Nat} (v : Vector α (n + 1)) : (intervals v).length = n := by
  simp [intervals]

/-- Entry `i` of a table; the default value where the table has no such entry (no rule of the spec reads there). -/
def entry {α : Type} [Inhabited α] {n : Nat} (v : Vector α n) (i : Nat) : α :=
  (v[i]?).getD default

/-- The table with entry `i` replaced; unchanged where the table has no such entry. -/
def setEntry {α : Type} {n : Nat} (v : Vector α n) (i : Nat) (x : α) : Vector α n :=
  v.setIfInBounds i x

end Sys2Proof.Machine
end

