-- ==== Sys2Proof/Machine/State.lean ====
section
/-! DEFINITION. The architectural state of 10_state.md as plain data, what can stop the model, and the state right
after reset (10_state.md R49, 70_reset_and_hazards.md R290). -/

namespace Sys2Proof.Machine

/-- STATUS.MODE (10_state.md R26, R32). The value 3 never occurs (log 26). -/
inductive Mode where
  | idle
  | enc
  | dec
deriving DecidableEq, Repr

/-- The block's fault codes other than NONE (60_exceptions.md R261). -/
inductive FaultCode where
  | noDonor
  | range
  | zeroFreq
  | badCmd
  | seq
  | badAddr
  | overlap
  | outOverflow
  | inUnderrun
  | totalOverflow
  | badBit
  | emptyModel
deriving DecidableEq, Repr

/-- ARG0-ARG3, as registers (10_state.md R21) or as the snapshot in the latch (R46). -/
structure Operands where
  a0 : Word
  a1 : Word
  a2 : Word
  a3 : Word
deriving DecidableEq, Repr

/-- The command latch: the accepted word and the snapshot of ARG0-ARG3 (10_state.md R46). -/
structure Latch where
  word : Word
  ops : Operands
deriving DecidableEq, Repr

/-- An encoding symbol descriptor, one entry of SYMTAB (10_state.md R43). -/
structure SymDesc where
  thr : Word
  rcp : Word
  bias : Word
  cmpl : Half
  shift : Byte
deriving DecidableEq, Repr, Inhabited

/-- What the bytes of WMEM that nothing has written since reset hold. -/
inductive Unwritten where
  /-- Draw number `n`: any value each, chosen once at reset, under no law (10_state.md R49; log 9). -/
  | drawn (n : Nat)
  /-- All the byte `b`: how a vector of 95_test_vectors.md fixes the draw ("fix them to 0 to reproduce the vector"). -/
  | fixed (b : Byte)
deriving DecidableEq, Repr

/-- WMEM: the listed bytes, addresses strictly rising, and what every other byte holds (log 9). -/
structure Memory where
  unwritten : Unwritten
  cells : List Host.Cell
deriving DecidableEq, Repr

/-- Everything the spec gives the machine (10_state.md), its parameters (00_scope.md R10, R11), and the model's own
`inbox`, `rdata` and `draws`. STATUS.BUSY is `latch.isSome` (log 3), IRQ is computed (60_exceptions.md R274), and the
constants of 10_state.md R24 are not stored. -/
structure State where
  /-- WMEM_SIZE and PACK_BIT_ORDER; no step changes them. -/
  params : Params
  /-- ARG0-ARG3 (R21). -/
  args : Operands
  /-- STATE, the coder state register (R22). -/
  state : Word
  /-- CMD, the last accepted command word (R25). -/
  cmd : Word
  /-- STATUS.DONE (R28). -/
  done : Bool
  /-- STATUS.FAULT and STATUS.FCODE: some code when FAULT = 1, none when FAULT = 0 and FCODE = 0 (R26, R29; log 4). -/
  fault : Option FaultCode
  /-- STATUS.CMDOVR (R30). -/
  cmdovr : Bool
  /-- STATUS.ACCERR (R31). -/
  accerr : Bool
  /-- STATUS.MODE (R32). -/
  mode : Mode
  /-- STATUS.CUMV (R33). -/
  cumv : Bool
  /-- STATUS.SYMV (R33). -/
  symv : Bool
  /-- STATUS.LUTV (R33). -/
  lutv : Bool
  /-- CTRL.IE (R34). -/
  ie : Bool
  /-- FINFO (R35). -/
  finfo : Word
  /-- FOP, whose bits 31:8 read 0 (R35; log 24). -/
  fop : Byte
  /-- WPTR (R36). -/
  wptr : Word
  /-- WEND (R36). -/
  wend : Word
  /-- WLIM (R36). -/
  wlim : Word
  /-- RPTR (R37). -/
  rptr : Word
  /-- RLIM (R37). -/
  rlim : Word
  /-- RESULT, whose bits 31:8 are always 0 (R38; log 24). -/
  result : Byte
  /-- TOTAL (R39). -/
  total : Word
  /-- OUTLEN (R40). -/
  outlen : Word
  /-- CNT[0..255] (R41). -/
  cnt : Vector Word 256
  /-- CUM[0..256] (R42). -/
  cum : Vector Word 257
  /-- SYMTAB[0..255] (R43). -/
  symtab : Vector SymDesc 256
  /-- LUT[0..16383] (R44). -/
  lut : Vector Byte 16384
  /-- WMEM[0..WMEM_SIZE-1] (R45). -/
  wmem : Memory
  /-- The command latch; none when no command is pending (R46). -/
  latch : Option Latch
  /-- MODEL'S OWN (log 2): what the outside world does next, oldest first. -/
  inbox : List Event
  /-- MODEL'S OWN (log 22): the value the last host read returned, zero-extended. -/
  rdata : Option Word
  /-- MODEL'S OWN (log 7): how many draws of unspecified values have been made. -/
  draws : Nat
deriving DecidableEq, Repr

/-- STATUS.BUSY (10_state.md R26, R27, R46; log 3): a command is latched and has not completed. -/
def State.busy (s : State) : Bool := s.latch.isSome

/-- What ends one command's rule (00_scope.md R14): it completes, it raises a block fault with its information word, or
the model stops. -/
inductive CmdResult where
  | done (s : State)
  | raised (c : FaultCode) (info : Word)
  | stuck (pointer : Word)
deriving DecidableEq, Repr

/-- What stops the model with a fault. (The block's own faults, 60_exceptions.md, are no stops: they are taken.) -/
inductive Fault where
  /-- Raised by ENCPUT, ENCFLUSH and DECGET when the pointer pair they run on is not a region of WMEM
  (WLIM <= WPTR <= WMEM_SIZE, RPTR <= RLIM <= WMEM_SIZE), so that they would move bytes at addresses that do not
  exist (20_memory.md R60). No state a run reaches has such pointers (10_state.md R48). SAFE (log 16). -/
  | pointerOutsideWmem (pointer : Word)
deriving DecidableEq, Repr

/-- What the model gives no step to. -/
inductive Refusal where
  /-- Raised by the dispatch for a command that has no meaning yet. SAFE. -/
  | notModelled (mnemonic : String)
  /-- Raised by the host bus for an access that breaks 20_memory.md R66 or R67 or lies outside the map: R68, "A model
  refuses such an access: it has no step". SAFE (log 20). -/
  | hostAccess (a : Access)
  /-- Raised by `exec` when no command is latched: "The engine never ... runs a command the host did not issue"
  (10_state.md R20). `step` never asks for it. SAFE (log 19). -/
  | noCommandLatched
deriving DecidableEq, Repr

/-- CUM as a draw (10_state.md R49; log 7). -/
def drawCum (n : Nat) : Vector Word 257 := tabulate 257 (Config.freeValue n .cum)

/-- SYMTAB as a draw, each field at its width. -/
def drawSymtab (n : Nat) : Vector SymDesc 256 :=
  tabulate 256 fun i =>
    { thr := Config.freeValue n .thr i
      rcp := Config.freeValue n .rcp i
      bias := Config.freeValue n .bias i
      cmpl := (Config.freeValue n .cmpl i).setWidth 16
      shift := (Config.freeValue n .shift i).setWidth 8 }

/-- LUT as a draw. -/
def drawLut (n : Nat) : Vector Byte 16384 :=
  tabulate 16384 fun i => (Config.freeValue n .lut i).setWidth 8

/-- The block when reset is deasserted (10_state.md R49, 70_reset_and_hazards.md R290): every register 0, MODE IDLE,
CNT all zero, no command latched; CUM, SYMTAB, LUT and WMEM, which R49 leaves unspecified, are draw number `n`. -/
def State.afterReset (p : Params) (n : Nat) : State where
  params := p
  args := ⟨0, 0, 0, 0⟩
  state := 0
  cmd := 0
  done := false
  fault := none
  cmdovr := false
  accerr := false
  mode := .idle
  cumv := false
  symv := false
  lutv := false
  ie := false
  finfo := 0
  fop := 0
  wptr := 0
  wend := 0
  wlim := 0
  rptr := 0
  rlim := 0
  result := 0
  total := 0
  outlen := 0
  cnt := tabulate 256 fun _ => 0
  cum := drawCum n
  symtab := drawSymtab n
  lut := drawLut n
  wmem := ⟨.drawn n, []⟩
  latch := none
  inbox := []
  rdata := none
  draws := n + 1

/-- The machine right after reset (10_state.md R49). Memory lists nothing; what R49 leaves unspecified is draw 0
(log 8, log 9). -/
def State.reset : State := State.afterReset Config.defaultParams 0

end Sys2Proof.Machine
end

