-- ==== Sys2Proof/Machine/Flags.lean ====
section
/-! DEFINITION. The STATUS and CTRL words, the interrupt output, the fault codes as numbers, and the changes of the
flags that several rules share (10_state.md R26-R34, 45_control.md R213, 60_exceptions.md R261, R274). -/

namespace Sys2Proof.Machine

/-- FCODE of a fault (60_exceptions.md R261). -/
def faultNumber (c : FaultCode) : Byte :=
  match c with
  | .noDonor => 0x01
  | .range => 0x02
  | .zeroFreq => 0x03
  | .badCmd => 0x04
  | .seq => 0x05
  | .badAddr => 0x06
  | .overlap => 0x07
  | .outOverflow => 0x08
  | .inUnderrun => 0x09
  | .totalOverflow => 0x0A
  | .badBit => 0x0B
  | .emptyModel => 0x0C

/-- The class of a fault (60_exceptions.md R261, R268): a precise fault is raised before the command changed anything. -/
def faultPrecise (c : FaultCode) : Bool :=
  match c with
  | .badCmd | .seq | .badAddr | .overlap => true
  | .noDonor | .range | .zeroFreq | .outOverflow | .inUnderrun | .totalOverflow | .badBit | .emptyModel => false

/-- STATUS.FCODE: 0 when FAULT = 0 (10_state.md R26). -/
def fcodeField (s : State) : Byte :=
  match s.fault with
  | some c => faultNumber c
  | none => 0

/-- STATUS.MODE as bits 9:8 (10_state.md R26). -/
def modeField (m : Mode) : BitVec 2 :=
  match m with
  | .idle => 0
  | .enc => 1
  | .dec => 2

/-- A flag as one bit. -/
def flagBit (b : Bool) : BitVec 1 := BitVec.ofBool b

/-- STATUS as a read returns it (10_state.md R26), from bit 31 down to bit 0; reserved bits read 0. -/
def statusWord (s : State) : Word :=
  (0 : BitVec 8) ++ fcodeField s ++ (0 : BitVec 1) ++ flagBit s.lutv ++ flagBit s.symv ++ flagBit s.cumv
    ++ (0 : BitVec 2) ++ modeField s.mode ++ (0 : BitVec 3) ++ flagBit s.accerr ++ flagBit s.cmdovr
    ++ flagBit s.fault.isSome ++ flagBit s.done ++ flagBit s.busy

/-- CTRL as a read returns it: IE in bit 0, the rest 0 (10_state.md R34). -/
def ctrlWord (s : State) : Word := (flagBit s.ie).setWidth 32

/-- The interrupt output (60_exceptions.md R274). -/
def irq (s : State) : Bool := s.ie && (s.done || s.fault.isSome)

/-- A host write of v to STATUS (45_control.md R213): each W1C bit with a 1 in v is cleared. Bit 2 is the RETURN FROM A
FAULT (60_exceptions.md R272): FAULT and FCODE become 0, and nothing else is restored. -/
def clearStatus (v : Word) (s : State) : State :=
  { s with
    done := s.done && !v.getLsbD 1
    fault := if v.getLsbD 2 then none else s.fault
    cmdovr := s.cmdovr && !v.getLsbD 3
    accerr := s.accerr && !v.getLsbD 4 }

/-- A host write of v to CTRL (45_control.md R214). -/
def setCtrl (v : Word) (s : State) : State := { s with ie := v.getLsbD 0 }

/-- `MODE <- IDLE; CUMV <- 0; SYMV <- 0; LUTV <- 0`: the start of COUNT, NORM and LDCNT, and a host write to CNT
(10_state.md R32, R33; 40_frequency_model.md R110, R111, R122; 45_control.md R216). -/
def dropTables (s : State) : State :=
  { s with mode := .idle, cumv := false, symv := false, lutv := false }

/-- 20_memory.md R72: a host access the block drops, or answers with a draw, while BUSY sets ACCERR. -/
def flagAccess (s : State) : State := { s with accerr := true }

end Sys2Proof.Machine
end

