-- ==== Sys2Proof/Machine/Operands.lean ====
section
/-! DEFINITION. The operand forms of the commands (30_encoding.md R93): buffers and regions of WMEM named by ARG
values, with exact, non-wrapping range arithmetic (20_memory.md R77, R78). -/

namespace Sys2Proof.Machine

/-- 20_memory.md R77: the buffer (a, n) is in range. The sum is exact: no 32-bit wrap. -/
def inRange (size a n : Nat) : Bool := decide (a + n ≤ size)

/-- 20_memory.md R78: the buffers (a, n) and (b, m) overlap. -/
def overlaps (a n b m : Nat) : Bool :=
  decide (0 < n) && decide (0 < m) && decide (a < b + m) && decide (b < a + n)

/-- 60_exceptions.md R266: an output region satisfies lim <= end <= WMEM_SIZE. -/
def regionOk (size lim hi : Nat) : Bool := decide (lim ≤ hi) && decide (hi ≤ size)

/-- 60_exceptions.md R266: a count operand satisfies k <= 256. -/
def entriesOk (k : Nat) : Bool := decide (k ≤ Config.nsym)

/-- ceil_div (00_scope.md R12), for b > 0. -/
def ceilDiv (a b : Nat) : Nat := (a + (b - 1)) / b

/-- The steps of a composite command, one after the other: the next runs on the state the one before left, and a fault
ends the composite (43_block_codec.md: "A fault in a step ends the composite with that fault"). -/
def CmdResult.andThen (r : CmdResult) (next : State → CmdResult) : CmdResult :=
  match r with
  | .done s => next s
  | .raised c info => .raised c info
  | .stuck p => .stuck p

end Sys2Proof.Machine
end

