-- ==== Sys2Proof/Machine/Ops.lean ====
section
/-! DEFINITION. The shared operations: the bytes of WMEM and their canonical form, accepting a command
(45_control.md R211), completing it (R212), and TAKING A FAULT (60_exceptions.md R268-R270). -/

namespace Sys2Proof.Machine

/-! ### The work memory -/

/-- What a byte at address `a` that is not listed holds (10_state.md R49, R45; log 9). -/
def unlistedByte (u : Unwritten) (a : Nat) : Byte :=
  match u with
  | .drawn n => (Config.freeValue n .wmem a).setWidth 8
  | .fixed b => b

/-- The byte listed at address `a`, if there is one. -/
def listedByte (cells : List Host.Cell) (a : Nat) : Option Byte :=
  match cells with
  | [] => none
  | (k, v) :: rest => if k = a then some v else listedByte rest a

/-- WMEM[a] (00_scope.md R13). -/
def readByte (m : Memory) (a : Nat) : Byte := (listedByte m.cells a).getD (unlistedByte m.unwritten a)

/-- The cells with nothing listed at address `a`. -/
def eraseCell (cells : List Host.Cell) (a : Nat) : List Host.Cell := cells.filter fun c => decide (c.1 ≠ a)

/-- The cells with `v` listed at address `a`, in the order of the addresses. -/
def insertCell (cells : List Host.Cell) (a : Nat) (v : Byte) : List Host.Cell :=
  match cells with
  | [] => [(a, v)]
  | (k, w) :: rest =>
    if a < k then (a, v) :: (k, w) :: rest
    else if a = k then (a, v) :: rest
    else (k, w) :: insertCell rest a v

/-- WMEM[a] <- v, keeping the canonical form: the byte that every unlisted address is fixed to is not listed. -/
def writeByte (m : Memory) (a : Nat) (v : Byte) : Memory :=
  if m.unwritten = .fixed v then { m with cells := eraseCell m.cells a }
  else { m with cells := insertCell m.cells a v }

/-- The canonical form of the cells from address `lo` on: addresses strictly rising, no byte listed that every unlisted
address is fixed to. -/
def canonicalFrom (u : Unwritten) (lo : Nat) (cells : List Host.Cell) : Bool :=
  match cells with
  | [] => true
  | (k, v) :: rest => decide (lo ≤ k) && decide (u ≠ .fixed v) && canonicalFrom u (k + 1) rest

/-- The canonical form of a memory: equal memories are equal data. -/
def Memory.wf (m : Memory) : Bool := canonicalFrom m.unwritten 0 m.cells

/-- Every listed address is below `size`: the memory holds no byte outside WMEM. -/
def memoryWithin (size : Nat) (m : Memory) : Bool := m.cells.all fun c => decide (c.1 < size)

/-- WMEM[a .. a+n), lowest address first. -/
def loadBytes (m : Memory) (a n : Nat) : List Byte := (List.range n).map fun k => readByte m (a + k)

/-- Store bytes at a, a+1, ..., in that order. -/
def storeBytes (m : Memory) (a : Nat) (bs : List Byte) : Memory :=
  match bs with
  | [] => m
  | b :: rest => storeBytes (writeByte m a b) (a + 1) rest

/-- The little-endian value of some bytes (00_scope.md R13). -/
def leValue (bs : List Byte) : Nat :=
  match bs with
  | [] => 0
  | b :: rest => b.toNat + 256 * leValue rest

/-- The n little-endian bytes of a word: byte k is (v >> 8k) & 0xFF (00_scope.md R13). -/
def leBytes (v : Word) (n : Nat) : List Byte := (List.range n).map fun k => (v >>> (8 * k)).setWidth 8

/-- MemRead(a, 4) (00_scope.md R13). -/
def memRead32 (m : Memory) (a : Nat) : Word := BitVec.ofNat 32 (leValue (loadBytes m a 4))

/-- MemWrite(a, 4, v) (00_scope.md R13). -/
def memWrite32 (m : Memory) (a : Nat) (v : Word) : Memory := storeBytes m a (leBytes v 4)

/-! ### Accepting and completing a command -/

/-- Acceptance of the word w (45_control.md R211, the `else` branch): CMD, the latch, BUSY (log 3), DONE. -/
def accept (w : Word) (s : State) : State :=
  { s with cmd := w, latch := some ⟨w, s.args⟩, done := false }

/-- A host write of w to CMD (45_control.md R211). -/
def writeCmd (w : Word) (s : State) : State :=
  if s.busy || s.fault.isSome then { s with cmdovr := true } else accept w s

/-- Completion without a fault (45_control.md R212): DONE, BUSY and the latch. -/
def complete (s : State) : State := { s with done := true, latch := none }

/-! ### Taking a fault -/

/-- FOP: the low byte of the latched word (60_exceptions.md R270). -/
def latchedOp (s : State) : Byte :=
  match s.latch with
  | some l => opField l.word
  | none => 0

/-- Fault recording, for every fault (60_exceptions.md R270). DONE stays as it is (0 since acceptance). -/
def recordFault (c : FaultCode) (info : Word) (s : State) : State :=
  { s with fault := some c, finfo := info, fop := latchedOp s, outlen := 0, latch := none }

/-- A drawn value within [lo, hi] (60_exceptions.md R269; log 12). -/
def drawBetween (n : Nat) (site : Config.DrawSite) (lo hi : Word) : Word :=
  BitVec.ofNat 32 (lo.toNat + (Config.freeValue n site 0).toNat % (hi.toNat - lo.toNat + 1))

/-- WMEM[lo .. hi) as a draw. -/
def drawBytes (n lo hi : Nat) (m : Memory) : Memory :=
  storeBytes m lo ((List.range (hi - lo)).map fun k => (Config.freeValue n .wmem (lo + k)).setWidth 8)

/-- CNT as a draw. -/
def drawCnt (n : Nat) : Vector Word 256 := tabulate 256 (Config.freeValue n .cnt)

/-- The table of 60_exceptions.md R269: what an abortive fault `c` of command `i` with operands `ops` does to the
validity bits and which state it leaves unspecified, on the state at entry of the command (log 11). A pair the table
does not list leaves nothing unspecified. -/
def leaveUnspecified (i : Instr) (c : FaultCode) (ops : Operands) (s : State) : State :=
  match i with
  | .norm =>
    if c = .noDonor then { s with cumv := false, symv := false, lutv := false, cum := drawCum s.draws }
    else { s with cumv := false, symv := false, lutv := false }
  | .symtab => { s with symv := false, symtab := drawSymtab s.draws }
  | .encput _ =>
    if c = .outOverflow then
      { s with
        wptr := drawBetween s.draws .wptr s.wlim s.wptr
        wmem := drawBytes s.draws s.wlim.toNat s.wptr.toNat s.wmem }
    else s
  | .decget => if c = .inUnderrun then { s with rptr := drawBetween s.draws .rptr s.rptr s.rlim } else s
  | .encode =>
    { s with
      cumv := false
      symv := false
      lutv := false
      cnt := drawCnt s.draws
      cum := drawCum s.draws
      symtab := drawSymtab s.draws
      total := Config.freeValue s.draws .total 0
      state := Config.freeValue s.draws .state 0
      wptr := Config.freeValue s.draws .wptr 0
      wend := Config.freeValue s.draws .wend 0
      wlim := Config.freeValue s.draws .wlim 0
      wmem := drawBytes s.draws ops.a3.toNat ops.a2.toNat s.wmem }
  | .decode =>
    { s with
      cumv := false
      symv := false
      lutv := false
      cum := drawCum s.draws
      symtab := drawSymtab s.draws
      lut := drawLut s.draws
      total := Config.freeValue s.draws .total 0
      state := Config.freeValue s.draws .state 0
      rptr := Config.freeValue s.draws .rptr 0
      rlim := Config.freeValue s.draws .rlim 0
      result := (Config.freeValue s.draws .result 0).setWidth 8
      wmem := drawBytes s.draws ops.a2.toNat (ops.a2.toNat + ops.a3.toNat) s.wmem }
  | .nop | .count | .lutgen | .encinit | .encflush | .decinit | .expand | .pack | .stcnt | .ldcnt => s

/-- TAKING A FAULT, the block's whole "trap entry": a precise fault only records itself (60_exceptions.md R268, R270);
an abortive one also leaves MODE = IDLE and what R269 names unspecified. `s` is the state at entry of the command. -/
def takeFault (i : Instr) (c : FaultCode) (info : Word) (ops : Operands) (s : State) : State :=
  if faultPrecise c then recordFault c info s
  else
    recordFault c info
      { leaveUnspecified i c ops s with mode := .idle, draws := s.draws + 1 }

/-- One command on the latched operands (45_control.md R212): its rule on the state at entry, then completion, or the
fault it raised. -/
def runCommand (i : Instr) (rule : Operands → State → CmdResult) (s : State) :
    Host.Outcome State Fault Refusal :=
  match s.latch with
  | none => .refused .noCommandLatched
  | some l =>
    match rule l.ops s with
    | .done t => .next (complete t)
    | .raised c info => .next (takeFault i c info l.ops s)
    | .stuck p => .fault (.pointerOutsideWmem p)

end Sys2Proof.Machine
end

