-- ==== Sys2Proof/Machine/BitPacker.lean ====
section
/-! DEFINITION. The bit expander and packer: EXPAND and PACK (44_bit_packer.md). -/

namespace Sys2Proof.Machine

/-- BitPos(k) (44_bit_packer.md). -/
def bitPos (o : BitOrder) (k : Nat) : Nat :=
  match o with
  | .lsbFirst => k
  | .msbFirst => 7 - k

/-- The 8 one-bit symbols of a byte: symbol k is bit BitPos(k) (44_bit_packer.md R200). -/
def expandByte (o : BitOrder) (b : Byte) : List Byte :=
  (List.range 8).map fun k => (b >>> bitPos o k) &&& 1

/-- EXPAND(src, n, dst) (44_bit_packer.md R200). -/
def expandRule (src n dst : Nat) (s : State) : CmdResult :=
  if !inRange s.params.wmemSize src n then .raised .badAddr 0
  else if !inRange s.params.wmemSize dst (8 * n) then .raised .badAddr 0
  else if overlaps src n dst (8 * n) then .raised .overlap 0
  else
    .done { s with
      wmem := storeBytes s.wmem dst ((loadBytes s.wmem src n).flatMap (expandByte s.params.bitOrder))
      outlen := BitVec.ofNat 32 (8 * n) }

/-- EXPAND (OP 0x0C): ARG0 = src, ARG1 = nbytes, ARG2 = dst. -/
def execExpand (s : State) : Host.Outcome State Fault Refusal :=
  runCommand .expand (fun a t => expandRule a.a0.toNat a.a1.toNat a.a2.toNat t) s

/-- One turn of positional OR-accumulation: `acc | (bit << BitPos(k))` (44_bit_packer.md R201). -/
def orBit (o : BitOrder) (acc : Byte) (k : Nat) (bit : Byte) : Byte := acc ||| (bit <<< bitPos o k)

/-- acc[j]: the OR-accumulation of the symbols i of the sequence with i >> 3 = j (44_bit_packer.md R201). A symbol the
sequence does not have contributes 0. -/
def packByte (o : BitOrder) (bits : List Byte) (j : Nat) : Byte :=
  (List.range 8).foldl (fun acc k => orBit o acc k (bits.getD (8 * j + k) 0)) 0

/-- The bytes a sequence of one-bit symbols packs into: acc[0], ..., acc[m-1] (44_bit_packer.md R201). -/
def packBits (o : BitOrder) (bits : List Byte) : List Byte :=
  (List.range (ceilDiv bits.length 8)).map (packByte o bits)

/-- The index of the first symbol byte greater than 1 (44_bit_packer.md R201, the validation pass). -/
def firstBadBit (bits : List Byte) : Option Nat := bits.findIdx? fun b => decide (1 < b.toNat)

/-- PACK(src, nbits, dst) (44_bit_packer.md R201). -/
def packRule (src nb dst : Nat) (s : State) : CmdResult :=
  if !inRange s.params.wmemSize src nb then .raised .badAddr 0
  else if !inRange s.params.wmemSize dst (ceilDiv nb 8) then .raised .badAddr 0
  else if overlaps src nb dst (ceilDiv nb 8) then .raised .overlap 0
  else
    match firstBadBit (loadBytes s.wmem src nb) with
    | some i => .raised .badBit (BitVec.ofNat 32 i)
    | none =>
      .done { s with
        wmem := storeBytes s.wmem dst (packBits s.params.bitOrder (loadBytes s.wmem src nb))
        outlen := BitVec.ofNat 32 (ceilDiv nb 8) }

/-- PACK (OP 0x0D): ARG0 = src, ARG1 = nbits, ARG2 = dst. -/
def execPack (s : State) : Host.Outcome State Fault Refusal :=
  runCommand .pack (fun a t => packRule a.a0.toNat a.a1.toNat a.a2.toNat t) s

end Sys2Proof.Machine
end

