-- ==== Sys2Proof/Machine/FrequencyModel.lean ====
section
/-! DEFINITION. The frequency model commands: COUNT, NORM, STCNT, LDCNT (40_frequency_model.md). Each rule is a function
of the operands it reads, so that ENCODE and DECODE run the same rules (43_block_codec.md). -/

namespace Sys2Proof.Machine

/-! ### COUNT -/

/-- `CNT[s] <- CNT[s] + 1` (40_frequency_model.md R110). -/
def countSymbol (cnt : Vector Word 256) (sym : Byte) : Vector Word 256 :=
  setEntry cnt sym.toNat (entry cnt sym.toNat + 1)

/-- The tally of some bytes from an all-zero CNT (40_frequency_model.md R110). -/
def tally (bs : List Byte) : Vector Word 256 := bs.foldl countSymbol (tabulate 256 fun _ => 0)

/-- COUNT(src, len) (40_frequency_model.md R110). -/
def countRule (src len : Nat) (s : State) : CmdResult :=
  if !inRange s.params.wmemSize src len then .raised .badAddr 0
  else .done { dropTables s with cnt := tally (loadBytes s.wmem src len) }

/-- COUNT (OP 0x01): ARG0 = src, ARG1 = len. -/
def execCount (s : State) : Host.Outcome State Fault Refusal :=
  runCommand .count (fun a t => countRule a.a0.toNat a.a1.toNat t) s

/-! ### NORM -/

/-- `total`, summed exactly (40_frequency_model.md R112). -/
def rawTotal (cnt : Vector Word 256) : Nat := (cnt.toList.map BitVec.toNat).sum

/-- The prefix sums C[0], C[1], ... from a running sum (40_frequency_model.md R113). -/
def prefixSums (acc : Nat) (cs : List Nat) : List Nat :=
  match cs with
  | [] => [acc]
  | c :: rest => acc :: prefixSums (acc + c) rest

/-- There is one prefix sum more than there are counts. -/
theorem prefixSums_length (acc : Nat) (cs : List Nat) : (prefixSums acc cs).length = cs.length + 1 := by
  induction cs generalizing acc with
  | nil => rfl
  | cons c rest ih => simp [prefixSums, ih]

/-- `CUM[i] <- floor_div(SCALE * C[i], total)` for a total that is not 0 (40_frequency_model.md R113). -/
def rescale (cnt : Vector Word 256) (total : Nat) : Vector Nat 257 :=
  tableOf ((prefixSums 0 (cnt.toList.map BitVec.toNat)).map fun c => Config.scale * c / total)
    (by simp [prefixSums_length])

/-- One comparison of the donor search, at symbol j of current width w: `if w > 1 and (best = NONE or w < bestw)`
(40_frequency_model.md R115). -/
def betterDonor (best : Option (Nat × Nat)) (w j : Nat) : Option (Nat × Nat) :=
  match best with
  | none => if 1 < w then some (j, w) else none
  | some (b, bw) => if 1 < w ∧ w < bw then some (j, w) else some (b, bw)

/-- The current widths CUM[j+1] - CUM[j], j = 0 .. 255 (40_frequency_model.md R115). -/
def widths (cum : Vector Nat 257) : List Nat := (intervals cum).map fun p => p.2 - p.1

/-- Donor: the lowest index of the smallest width greater than 1, if there is one (40_frequency_model.md R115). -/
def donor (cum : Vector Nat 257) : Option Nat :=
  ((widths cum).zipIdx.foldl (fun best p => betterDonor best p.1 p.2) none).map Prod.fst

/-- Entry k of CUM after Steal(d, r), from its value c before (40_frequency_model.md R116; 90_conflicts.md C2). -/
def stolenEntry (d r k c : Nat) : Nat :=
  if d < r then (if d + 1 ≤ k ∧ k < r + 1 then c - 1 else c)
  else if r + 1 ≤ k ∧ k < d + 1 then c + 1 else c

/-- Steal(d, r): one unit of width moves from d to r (40_frequency_model.md R116). -/
def steal (cum : Vector Nat 257) (d r : Nat) : Vector Nat 257 :=
  tableOf (cum.toList.zipIdx.map fun p => stolenEntry d r p.2 p.1) (by simp)

/-- The symbols with a nonzero count, in increasing order: the only ones the collision scan can repair
(40_frequency_model.md R114). -/
def countedSymbols (cnt : Vector Word 256) : List Nat :=
  (cnt.toList.zipIdx.filter fun p => decide (p.1 ≠ 0)).map Prod.snd

/-- The collision scan over the counted symbols still to visit: each whose interval is empty in CUM as it now is gets
one unit from the donor (40_frequency_model.md R114); the error is the recipient of a NO_DONOR (R117). -/
def repairScan (todo : List Nat) (cum : Vector Nat 257) : Except Nat (Vector Nat 257) :=
  match todo with
  | [] => .ok cum
  | i :: rest =>
    if entry cum (i + 1) = entry cum i then
      match donor cum with
      | some d => repairScan rest (steal cum d i)
      | none => .error i
    else repairScan rest cum

/-- CUM after NORM of CNT with a total that fits in 32 bits (40_frequency_model.md R113, R114): all zero when the total
is 0. -/
def normalize (cnt : Vector Word 256) : Except Nat (Vector Nat 257) :=
  if rawTotal cnt = 0 then .ok (tabulate 257 fun _ => 0)
  else repairScan (countedSymbols cnt) (rescale cnt (rawTotal cnt))

/-- CUM entries as they are stored: each value is at most SCALE (40_frequency_model.md R113), so it fits a word. -/
def storeCum (cum : Vector Nat 257) : Vector Word 257 := mapTable (BitVec.ofNat 32) cum

/-- NORM (40_frequency_model.md R111 to R118). -/
def normRule (s : State) : CmdResult :=
  if 0xFFFFFFFF < rawTotal s.cnt then .raised .totalOverflow (BitVec.ofNat 32 (rawTotal s.cnt))
  else
    match normalize s.cnt with
    | .error i => .raised .noDonor (BitVec.ofNat 32 i)
    | .ok cum =>
      .done { dropTables s with
        cum := storeCum cum
        total := BitVec.ofNat 32 (rawTotal s.cnt)
        cumv := true }

/-- NORM (OP 0x02): no operands. -/
def execNorm (s : State) : Host.Outcome State Fault Refusal :=
  runCommand .norm (fun _ t => normRule t) s

/-! ### STCNT and LDCNT -/

/-- STCNT(dst, k) (40_frequency_model.md R121). -/
def stcntRule (dst k : Nat) (s : State) : CmdResult :=
  if !entriesOk k then .raised .badAddr 0
  else if !inRange s.params.wmemSize dst (4 * k) then .raised .badAddr 0
  else
    .done { s with
      wmem := storeBytes s.wmem dst ((List.range k).flatMap fun i => leBytes (entry s.cnt i) 4)
      outlen := BitVec.ofNat 32 (4 * k) }

/-- STCNT (OP 0x0E): ARG0 = dst, ARG1 = k. -/
def execStcnt (s : State) : Host.Outcome State Fault Refusal :=
  runCommand .stcnt (fun a t => stcntRule a.a0.toNat a.a1.toNat t) s

/-- LDCNT(src, k) (40_frequency_model.md R122). -/
def ldcntRule (src k : Nat) (s : State) : CmdResult :=
  if !entriesOk k then .raised .badAddr 0
  else if !inRange s.params.wmemSize src (4 * k) then .raised .badAddr 0
  else
    .done { dropTables s with
      cnt := tabulate 256 fun i => if i < k then memRead32 s.wmem (src + 4 * i) else 0 }

/-- LDCNT (OP 0x0F): ARG0 = src, ARG1 = k. -/
def execLdcnt (s : State) : Host.Outcome State Fault Refusal :=
  runCommand .ldcnt (fun a t => ldcntRule a.a0.toNat a.a1.toNat t) s

end Sys2Proof.Machine
end

