-- ==== Sys2Proof/Machine/RansCodec.lean ====
section
/-! DEFINITION. The rANS state machine primitives: ENCINIT, ENCPUT, ENCFLUSH, DECINIT, DECGET (42_rans_codec.md). -/

namespace Sys2Proof.Machine

/-! ### ENCINIT -/

/-- ENCINIT(end, lim) (42_rans_codec.md R150). -/
def encinitRule (hi lim : Word) (s : State) : CmdResult :=
  if !s.symv then .raised .seq 2
  else if !regionOk s.params.wmemSize lim.toNat hi.toNat then .raised .badAddr 0
  else
    .done { s with
      state := BitVec.ofNat 32 Config.lower
      wend := hi
      wptr := hi
      wlim := lim
      mode := .enc }

/-- ENCINIT (OP 0x05): ARG0 = end, ARG1 = lim. -/
def execEncinit (s : State) : Host.Outcome State Fault Refusal :=
  runCommand .encinit (fun a t => encinitRule a.a0 a.a1 t) s

/-! ### ENCPUT -/

/-- What the encoder's renormalization leaves: the working value, the write position, the memory. -/
structure EncStep where
  x : Nat
  wptr : Nat
  mem : Memory
deriving DecidableEq, Repr

/-- `while x >= D.THR` (42_rans_codec.md R152), with `room` = WPTR - WLIM bytes left: each turn needs a byte of room,
stores the low byte one address down and shifts right by 8. No room left is OUT_OVERFLOW (none). -/
def encRenorm (thr room x wptr : Nat) (m : Memory) : Except Nat EncStep :=
  if x < thr then .ok ⟨x, wptr, m⟩
  else
    match room with
    | 0 => .error wptr
    | r + 1 => encRenorm thr r (x / 256) (wptr - 1) (writeByte m (wptr - 1) (BitVec.ofNat 8 x))

/-- `q <- ((x * D.RCP) >> 32) >> D.SHIFT` (42_rans_codec.md R153), exact. -/
def encQuotient (d : SymDesc) (x : Nat) : Nat := (x * d.rcp.toNat / 2 ^ 32) / 2 ^ d.shift.toNat

/-- `STATE <- (x + D.BIAS + q * D.CMPL) mod 2^32` (42_rans_codec.md R153). -/
def encInsert (d : SymDesc) (x : Nat) : Word :=
  BitVec.ofNat 32 (x + d.bias.toNat + encQuotient d x * d.cmpl.toNat)

/-- ENCPUT(sym) (42_rans_codec.md R151 to R153). -/
def encputRule (sym : Byte) (s : State) : CmdResult :=
  if s.mode ≠ .enc then .raised .seq 4
  else if (entry s.symtab sym.toNat).thr = 0 then .raised .zeroFreq (sym.setWidth 32)
  else if regionOk s.params.wmemSize s.wlim.toNat s.wptr.toNat = false then .stuck s.wptr
  else
    match encRenorm (entry s.symtab sym.toNat).thr.toNat (s.wptr.toNat - s.wlim.toNat) s.state.toNat
        s.wptr.toNat s.wmem with
    | .error wp => .raised .outOverflow (BitVec.ofNat 32 wp)
    | .ok e =>
      .done { s with
        wmem := e.mem
        wptr := BitVec.ofNat 32 e.wptr
        state := encInsert (entry s.symtab sym.toNat) e.x }

/-- ENCPUT (OP 0x06): the symbol is IMM8. -/
def execEncput (sym : Byte) (s : State) : Host.Outcome State Fault Refusal :=
  runCommand (.encput sym) (fun _ t => encputRule sym t) s

/-! ### ENCFLUSH -/

/-- ENCFLUSH (42_rans_codec.md R155). -/
def encflushRule (s : State) : CmdResult :=
  if s.mode ≠ .enc then .raised .seq 4
  else if s.wptr.toNat - s.wlim.toNat < 4 then .raised .outOverflow s.wptr
  else if regionOk s.params.wmemSize s.wlim.toNat s.wptr.toNat = false then .stuck s.wptr
  else
    .done { s with
      wptr := s.wptr - 4
      wmem := memWrite32 s.wmem (s.wptr.toNat - 4) s.state
      outlen := s.wend - (s.wptr - 4)
      mode := .idle }

/-- ENCFLUSH (OP 0x07): no operands. -/
def execEncflush (s : State) : Host.Outcome State Fault Refusal :=
  runCommand .encflush (fun _ t => encflushRule t) s

/-! ### DECINIT -/

/-- DECINIT(src, len) (42_rans_codec.md R156). -/
def decinitRule (src len : Word) (s : State) : CmdResult :=
  if !s.lutv then .raised .seq 3
  else if !inRange s.params.wmemSize src.toNat len.toNat then .raised .badAddr 0
  else if len.toNat < 4 then .raised .inUnderrun src
  else
    .done { s with
      state := memRead32 s.wmem src.toNat
      rptr := src + 4
      rlim := src + len
      mode := .dec }

/-- DECINIT (OP 0x08): ARG0 = src, ARG1 = len. -/
def execDecinit (s : State) : Host.Outcome State Fault Refusal :=
  runCommand .decinit (fun a t => decinitRule a.a0 a.a1 t) s

/-! ### DECGET -/

/-- `sym <- LUT[x & MASK]` (42_rans_codec.md R157). -/
def decSymbol (s : State) : Byte := entry s.lut (s.state.toNat % Config.scale)

/-- `x <- f * (x >> PROBBITS) + (x & MASK) - s` (42_rans_codec.md R157, R158), exact; f is the normalized width
(90_conflicts.md C4). Never negative where the LUT law R139 holds; elsewhere the subtraction stops at 0 (log 17). -/
def decAdvance (cum : Vector Word 257) (sym x : Nat) : Nat :=
  ((entry cum (sym + 1)).toNat - (entry cum sym).toNat) * (x / Config.scale) + x % Config.scale
    - (entry cum sym).toNat

/-- `while x < LOWER` (42_rans_codec.md R159), with `avail` = RLIM - RPTR bytes left: each turn shifts in the byte at
the read position. The result is the new x and read position; no byte left is IN_UNDERRUN. -/
def decRenorm (m : Memory) (avail x rptr : Nat) : Except Nat (Nat × Nat) :=
  if Config.lower ≤ x then .ok (x, rptr)
  else
    match avail with
    | 0 => .error rptr
    | n + 1 => decRenorm m n ((x * 256 + (readByte m rptr).toNat) % 2 ^ 32) (rptr + 1)

/-- DECGET (42_rans_codec.md R157 to R159). -/
def decgetRule (s : State) : CmdResult :=
  if s.mode ≠ .dec then .raised .seq 5
  else if entry s.cum 256 = 0 then .raised .emptyModel 0
  else if regionOk s.params.wmemSize s.rptr.toNat s.rlim.toNat = false then .stuck s.rptr
  else
    match decRenorm s.wmem (s.rlim.toNat - s.rptr.toNat)
        (decAdvance s.cum (decSymbol s).toNat s.state.toNat) s.rptr.toNat with
    | .error rp => .raised .inUnderrun (BitVec.ofNat 32 rp)
    | .ok (x, rp) =>
      .done { s with
        state := BitVec.ofNat 32 x
        rptr := BitVec.ofNat 32 rp
        result := decSymbol s }

/-- DECGET (OP 0x09): no operands. -/
def execDecget (s : State) : Host.Outcome State Fault Refusal :=
  runCommand .decget (fun _ t => decgetRule t) s

end Sys2Proof.Machine
end

