-- ==== Sys2Proof/Machine/SymbolTables.lean ====
section
/-! DEFINITION. The symbol table commands: SYMTAB and LUTGEN (41_symbol_tables.md). Both read only CUM. -/

namespace Sys2Proof.Machine

/-! ### SYMTAB -/

/-- RangeCheck fails: `s > SCALE or f > SCALE - s` (41_symbol_tables.md R131). -/
def outOfSlot (s f : Nat) : Bool := decide (Config.scale < s) || decide (Config.scale - s < f)

/-- Threshold(f) (41_symbol_tables.md R132; 90_conflicts.md C1). -/
def thresholdOf (f : Nat) : Nat := Config.thresholdUnit * f

/-- The least n with f <= 2^n, for 2 <= f <= SCALE (41_symbol_tables.md R135). -/
def leastShift (f : Nat) : Nat := ((List.range 15).find? fun n => decide (f ≤ 2 ^ n)).getD 14

/-- RCP (41_symbol_tables.md R134, R135). -/
def reciprocalOf (f : Nat) : Nat :=
  if f < 2 then 0xFFFFFFFF else ceilDiv (2 ^ (leastShift f + 31)) f

/-- SHIFT (41_symbol_tables.md R134, R135). -/
def storedShiftOf (f : Nat) : Nat := if f < 2 then 0 else leastShift f - 1

/-- BIAS (41_symbol_tables.md R134, R135). -/
def biasOf (s f : Nat) : Nat := if f < 2 then s + Config.scale - 1 else s

/-- The descriptor of a symbol with start s and frequency f (41_symbol_tables.md R132 to R135). -/
def descriptor (s f : Nat) : SymDesc where
  thr := BitVec.ofNat 32 (thresholdOf f)
  rcp := BitVec.ofNat 32 (reciprocalOf f)
  bias := BitVec.ofNat 32 (biasOf s f)
  cmpl := BitVec.ofNat 16 (Config.scale - f)
  shift := BitVec.ofNat 8 (storedShiftOf f)

/-- The normalized frequency of an interval: `f <- (CUM[i+1] - CUM[i]) mod 2^32` (41_symbol_tables.md R130). -/
def freqOf (p : Word × Word) : Nat := (p.2 - p.1).toNat

/-- The first symbol, in increasing order, whose slot is out of range (41_symbol_tables.md R131). -/
def firstOutOfSlot (cum : Vector Word 257) : Option Nat :=
  (intervals cum).findIdx? fun p => outOfSlot p.1.toNat (freqOf p)

/-- SYMTAB[0..255] for a CUM (41_symbol_tables.md R130). -/
def buildSymtab (cum : Vector Word 257) : Vector SymDesc 256 :=
  tableOf ((intervals cum).map fun p => descriptor p.1.toNat (freqOf p)) (by simp [intervals_length])

/-- SYMTAB (41_symbol_tables.md R130 to R136). -/
def symtabRule (s : State) : CmdResult :=
  if !s.cumv then .raised .seq 1
  else
    match firstOutOfSlot s.cum with
    | some i => .raised .range (BitVec.ofNat 32 i)
    | none => .done { s with symtab := buildSymtab s.cum, symv := true }

/-- SYMTAB (OP 0x03): no operands. -/
def execSymtab (s : State) : Host.Outcome State Fault Refusal :=
  runCommand .symtab (fun _ t => symtabRule t) s

/-! ### LUTGEN -/

/-- The symbol i with CUM[i] <= k < CUM[i+1], or 0 when no symbol owns slot k (41_symbol_tables.md R138).
In a CUM no run reaches, where two own it, the lower one (log 17). -/
def slotOwner (cum : Vector Word 257) (k : Nat) : Nat :=
  ((intervals cum).findIdx? fun p => decide (p.1.toNat ≤ k) && decide (k < p.2.toNat)).getD 0

/-- LUT[0..16383] for a CUM (41_symbol_tables.md R138). -/
def buildLut (cum : Vector Word 257) : Vector Byte 16384 :=
  tabulate 16384 fun k => BitVec.ofNat 8 (slotOwner cum k)

/-- LUTGEN (41_symbol_tables.md R138). -/
def lutgenRule (s : State) : CmdResult :=
  if !s.cumv then .raised .seq 1
  else .done { s with lut := buildLut s.cum, lutv := true }

/-- LUTGEN (OP 0x04): no operands. -/
def execLutgen (s : State) : Host.Outcome State Fault Refusal :=
  runCommand .lutgen (fun _ t => lutgenRule t) s

end Sys2Proof.Machine
end

