-- ==== Sys2Proof/Machine/BlockCodec.lean ====
section
/-! DEFINITION. The block codec commands: ENCODE and DECODE (43_block_codec.md), each a fixed sequence of the rules of
the primitive commands, run inside one command. -/

namespace Sys2Proof.Machine

/-! ### ENCODE -/

/-- `for k = n-1 downto 0: ENCPUT(WMEM[src + k])` (43_block_codec.md R181). -/
def encputsDown (src n : Nat) (s : State) : CmdResult :=
  match n with
  | 0 => .done s
  | k + 1 => (encputRule (readByte s.wmem (src + k)) s).andThen (encputsDown src k)

/-- ENCODE's steps after its operand checks (43_block_codec.md R181). -/
def encodeSteps (src len : Nat) (hi lim : Word) (s : State) : CmdResult :=
  (((((countRule src len s).andThen normRule).andThen symtabRule).andThen (encinitRule hi lim)).andThen
    (encputsDown src len)).andThen encflushRule

/-- ENCODE(src, len, end, lim) (43_block_codec.md R180, R181). -/
def encodeRule (src len hi lim : Word) (s : State) : CmdResult :=
  if !inRange s.params.wmemSize src.toNat len.toNat then .raised .badAddr 0
  else if !regionOk s.params.wmemSize lim.toNat hi.toNat then .raised .badAddr 0
  else if overlaps src.toNat len.toNat lim.toNat (hi.toNat - lim.toNat) then .raised .overlap 0
  else encodeSteps src.toNat len.toNat hi lim s

/-- ENCODE (OP 0x0A): ARG0 = src, ARG1 = len, ARG2 = end, ARG3 = lim. -/
def execEncode (s : State) : Host.Outcome State Fault Refusal :=
  runCommand .encode (fun a t => encodeRule a.a0 a.a1 a.a2 a.a3 t) s

/-! ### DECODE -/

/-- `WMEM[dst] <- RESULT` after a DECGET (43_block_codec.md R184). -/
def storeResult (dst : Nat) (s : State) : State := { s with wmem := writeByte s.wmem dst s.result }

/-- n turns of `DECGET; WMEM[dst + k] <- RESULT`, dst rising (43_block_codec.md R184). -/
def decgetsUp (n dst : Nat) (s : State) : CmdResult :=
  match n with
  | 0 => .done s
  | k + 1 => (decgetRule s).andThen fun t => decgetsUp k (dst + 1) (storeResult dst t)

/-- DECODE's steps once the model is rebuilt: the capacity check, DECINIT, TOTAL DECGETs (43_block_codec.md R184). -/
def decodeSymbols (src len : Word) (dst cap : Nat) (s : State) : CmdResult :=
  if cap < s.total.toNat then .raised .outOverflow s.total
  else
    ((decinitRule src len s).andThen (decgetsUp s.total.toNat dst)).andThen fun t =>
      .done { t with outlen := s.total }

/-- DECODE's steps after its operand checks (43_block_codec.md R184; 90_conflicts.md C9). -/
def decodeSteps (src len : Word) (dst cap : Nat) (s : State) : CmdResult :=
  (((normRule s).andThen symtabRule).andThen lutgenRule).andThen (decodeSymbols src len dst cap)

/-- DECODE(src, len, dst, cap) (43_block_codec.md R183, R184). -/
def decodeRule (src len dst cap : Word) (s : State) : CmdResult :=
  if !inRange s.params.wmemSize src.toNat len.toNat then .raised .badAddr 0
  else if !inRange s.params.wmemSize dst.toNat cap.toNat then .raised .badAddr 0
  else if overlaps src.toNat len.toNat dst.toNat cap.toNat then .raised .overlap 0
  else decodeSteps src len dst.toNat cap.toNat s

/-- DECODE (OP 0x0B): ARG0 = src, ARG1 = len, ARG2 = dst, ARG3 = cap. -/
def execDecode (s : State) : Host.Outcome State Fault Refusal :=
  runCommand .decode (fun a t => decodeRule a.a0 a.a1 a.a2 a.a3 t) s

end Sys2Proof.Machine
end

