-- ==== Sys2Proof/Machine/Control.lean ====
section
/-! DEFINITION. NOP (45_control.md R210). -/

namespace Sys2Proof.Machine

/-- NOP: no effect of its own. -/
def nopRule (s : State) : CmdResult := .done s

/-- NOP (OP 0x00), 45_control.md R210: it completes at once, which sets DONE. -/
def execNop (s : State) : Host.Outcome State Fault Refusal :=
  runCommand .nop (fun _ t => nopRule t) s

end Sys2Proof.Machine
end

