-- ==== Sys2Proof/Machine/Dispatch.lean ====
section
/-! DEFINITION. One arm per command (30_encoding.md R95). -/

namespace Sys2Proof.Machine

def exec (i : Instr) (s : State) : Host.Outcome State Fault Refusal :=
  match i with
  | .nop => Sys2Proof.Machine.execNop s
  | .count => Sys2Proof.Machine.execCount s
  | .norm => Sys2Proof.Machine.execNorm s
  | .symtab => Sys2Proof.Machine.execSymtab s
  | .lutgen => Sys2Proof.Machine.execLutgen s
  | .encinit => Sys2Proof.Machine.execEncinit s
  | .encput sym => Sys2Proof.Machine.execEncput sym s
  | .encflush => Sys2Proof.Machine.execEncflush s
  | .decinit => Sys2Proof.Machine.execDecinit s
  | .decget => Sys2Proof.Machine.execDecget s
  | .encode => Sys2Proof.Machine.execEncode s
  | .decode => Sys2Proof.Machine.execDecode s
  | .expand => Sys2Proof.Machine.execExpand s
  | .pack => Sys2Proof.Machine.execPack s
  | .stcnt => Sys2Proof.Machine.execStcnt s
  | .ldcnt => Sys2Proof.Machine.execLdcnt s

end Sys2Proof.Machine
end

