-- ==== Sys2Proof/Machine/Engine.lean ====
section
/-! DEFINITION. The engine's step (45_control.md R212): decode the latched word and run it; a malformed word takes
BAD_CMD (60_exceptions.md R264). -/

namespace Sys2Proof.Machine

/-- BAD_CMD on the word w: a precise fault, FINFO = the whole word (60_exceptions.md R264, R268). -/
def badCommand (w : Word) (s : State) : State := recordFault .badCmd w s

/-- The engine's turn (45_control.md R212). With no command pending the block is idle and keeps all its state
(60_exceptions.md R282; log 18). -/
def engineTurn (s : State) : Host.Outcome State Fault Refusal :=
  match s.latch with
  | none => .next s
  | some l =>
    match decodeWord l.word with
    | .ok i => exec i s
    | .error _ => .next (badCommand l.word s)

/-- The state in which the command word w has just been accepted and the engine has the next turn (45_control.md R211;
log 21). -/
def placeCommand (w : Word) (s : State) : State :=
  { accept w s with inbox := .engine :: s.inbox }

/-- `s` with a row of `nbits` bits placed as the next command. There is one command length, one 32-bit word
(30_encoding.md R98): what is no such word is not placed. -/
def placeTableWord (nbits w : Nat) (s : State) : State :=
  if nbits = 32 ∧ w < 2 ^ 32 then placeCommand (BitVec.ofNat 32 w) s else s

end Sys2Proof.Machine
end

