-- ==== Sys2Proof/Machine/HostBus.lean ====
section
/-! DEFINITION. The host's side of the block: the host address map (20_memory.md R61 to R64), which accesses are
permitted (R66 to R68), what each does when BUSY = 0 and when BUSY = 1 (R72, 45_control.md R211 to R219, R221), and
the reset pulse (70_reset_and_hazards.md R290). -/

namespace Sys2Proof.Machine

/-! ### The address map -/

/-- The register at an offset (20_memory.md R61). -/
def regAt (off : Nat) : Option HostReg :=
  match off with
  | 0x000 => some .id
  | 0x004 => some .version
  | 0x008 => some .paramProbbits
  | 0x00C => some .paramLower
  | 0x010 => some .paramWmemsize
  | 0x014 => some .paramNsym
  | 0x020 => some .cmd
  | 0x024 => some .status
  | 0x028 => some .ctrl
  | 0x02C => some .finfo
  | 0x030 => some .arg0
  | 0x034 => some .arg1
  | 0x038 => some .arg2
  | 0x03C => some .arg3
  | 0x040 => some .state
  | 0x044 => some .wptr
  | 0x048 => some .wend
  | 0x04C => some .wlim
  | 0x050 => some .rptr
  | 0x054 => some .rlim
  | 0x058 => some .result
  | 0x05C => some .total
  | 0x060 => some .outlen
  | 0x064 => some .fop
  | _ => none

/-- What an offset names, for a block with `size` bytes of WMEM (20_memory.md R61 to R64). -/
def placeAt (size off : Nat) : Place :=
  if off < 0x400 then
    match regAt off with
    | some r => .reg r
    | none => .reserved
  else if off < 0x800 then .cnt ((off - 0x400) / 4)
  else if off < 0xC04 then .cum ((off - 0x800) / 4)
  else if off < 0x1000 then .reserved
  else if off < 0x2000 then .symtab ((off - 0x1000) / 16) ((off - 0x1000) % 16 / 4)
  else if off < 0x4000 then .reserved
  else if off < 0x8000 then .lut (off - 0x4000)
  else if off < 0x10000 then .reserved
  else if off < 0x10000 + size then .wmem (off - 0x10000)
  else .outside

/-- How many bytes an access moves. -/
def widthBytes (w : Width) : Nat :=
  match w with
  | .w8 => 1
  | .w16 => 2
  | .w32 => 4

/-- A naturally aligned access lying wholly inside [lo, hi) (20_memory.md R67). -/
def insideWindow (lo hi : Nat) (w : Width) (off : Nat) : Bool :=
  decide (lo ≤ off) && decide (off + widthBytes w ≤ hi) && decide (off % widthBytes w = 0)

/-- An access lying wholly inside the reserved gap [lo, hi): no rule restricts its width or alignment (log 13). -/
def insideGap (lo hi : Nat) (w : Width) (off : Nat) : Bool :=
  decide (lo ≤ off) && decide (off + widthBytes w ≤ hi)

/-- A 32-bit access at a 4-byte-aligned offset of [lo, hi) (20_memory.md R66). -/
def insideWords (lo hi : Nat) (w : Width) (off : Nat) : Bool :=
  decide (w = .w32) && decide (lo ≤ off) && decide (off < hi) && decide (off % 4 = 0)

/-- The access is performed: it breaks neither 20_memory.md R66 nor R67 and lies inside the map (R68). -/
def permitted (size : Nat) (w : Width) (off : Nat) : Bool :=
  insideWords 0 0x400 w off || insideWords 0x400 0xC04 w off || insideGap 0xC04 0x1000 w off
    || insideWords 0x1000 0x2000 w off || insideGap 0x2000 0x4000 w off || insideWindow 0x4000 0x8000 w off
    || insideGap 0x8000 0x10000 w off || insideWindow 0x10000 (0x10000 + size) w off

/-! ### Reads -/

/-- A register's current value, reserved bits 0 (45_control.md R218; 10_state.md R24 to R40). -/
def regValue (r : HostReg) (s : State) : Word :=
  match r with
  | .id => 0x52414E53
  | .version => 1
  | .paramProbbits => BitVec.ofNat 32 Config.probBits
  | .paramLower => BitVec.ofNat 32 Config.lower
  | .paramWmemsize => BitVec.ofNat 32 s.params.wmemSize
  | .paramNsym => BitVec.ofNat 32 Config.nsym
  | .cmd => s.cmd
  | .status => statusWord s
  | .ctrl => ctrlWord s
  | .finfo => s.finfo
  | .arg0 => s.args.a0
  | .arg1 => s.args.a1
  | .arg2 => s.args.a2
  | .arg3 => s.args.a3
  | .state => s.state
  | .wptr => s.wptr
  | .wend => s.wend
  | .wlim => s.wlim
  | .rptr => s.rptr
  | .rlim => s.rlim
  | .result => s.result.setWidth 32
  | .total => s.total
  | .outlen => s.outlen
  | .fop => s.fop.setWidth 32

/-- The registers whose read while BUSY = 1 returns an unspecified value (20_memory.md R72). ARG reads are not among
them (log 15). -/
def busyHides (r : HostReg) : Bool :=
  match r with
  | .finfo | .state | .wptr | .wend | .wlim | .rptr | .rlim | .result | .total | .outlen | .fop => true
  | .id | .version | .paramProbbits | .paramLower | .paramWmemsize | .paramNsym | .cmd | .status | .ctrl
  | .arg0 | .arg1 | .arg2 | .arg3 => false

/-- A host word of a descriptor (20_memory.md R62): +0 THR, +4 RCP, +8 BIAS, +12 (SHIFT << 16) | CMPL. -/
def descWord (d : SymDesc) (word : Nat) : Word :=
  match word with
  | 0 => d.thr
  | 1 => d.rcp
  | 2 => d.bias
  | _ => (0 : Byte) ++ d.shift ++ d.cmpl

/-- LUT[k .. k+n), lowest index first. -/
def lutBytes (lut : Vector Byte 16384) (k n : Nat) : List Byte := (List.range n).map fun j => entry lut (k + j)

/-- What a read returns while BUSY = 0 (45_control.md R218, R219; 20_memory.md R64, R65). -/
def placeValue (p : Place) (w : Width) (s : State) : Word :=
  match p with
  | .reg r => regValue r s
  | .cnt i => entry s.cnt i
  | .cum i => entry s.cum i
  | .symtab i word => descWord (entry s.symtab i) word
  | .lut k => BitVec.ofNat 32 (leValue (lutBytes s.lut k (widthBytes w)))
  | .wmem a => BitVec.ofNat 32 (leValue (loadBytes s.wmem a (widthBytes w)))
  | .reserved => 0
  | .outside => 0

/-- The host receives a value. -/
def answerRead (v : Word) (s : State) : State := { s with rdata := some v }

/-- The host receives a draw, of the access's width (20_memory.md R72). -/
def answerDraw (w : Width) (s : State) : State :=
  { s with
    rdata := some (BitVec.ofNat 32 ((Config.freeValue s.draws .busRead 0).toNat % 2 ^ (8 * widthBytes w)))
    draws := s.draws + 1 }

/-- A permitted host read (20_memory.md R72 when BUSY = 1, 45_control.md R218 and R219 when BUSY = 0). -/
def hostRead (w : Width) (off : Nat) (s : State) : State :=
  let p := placeAt s.params.wmemSize off
  match p with
  | .reg r => if s.busy && busyHides r then answerDraw w s else answerRead (placeValue p w s) s
  | .cnt _ | .cum _ | .symtab _ _ | .lut _ | .wmem _ =>
    if s.busy then answerDraw w (flagAccess s) else answerRead (placeValue p w s) s
  | .reserved | .outside => answerRead (placeValue p w s) s

/-! ### Writes -/

/-- ARG[i] <- v. -/
def setArg (i : Nat) (v : Word) (s : State) : State :=
  match i with
  | 0 => { s with args := { s.args with a0 := v } }
  | 1 => { s with args := { s.args with a1 := v } }
  | 2 => { s with args := { s.args with a2 := v } }
  | _ => { s with args := { s.args with a3 := v } }

/-- A host write to ARG[i] (45_control.md R215). -/
def writeArg (i : Nat) (v : Word) (s : State) : State := if s.busy then flagAccess s else setArg i v s

/-- A host write to a register (45_control.md R211, R213 to R215); a write to a read-only register is ignored
(20_memory.md R64). -/
def writeReg (r : HostReg) (v : Word) (s : State) : State :=
  match r with
  | .cmd => writeCmd v s
  | .status => clearStatus v s
  | .ctrl => setCtrl v s
  | .arg0 => writeArg 0 v s
  | .arg1 => writeArg 1 v s
  | .arg2 => writeArg 2 v s
  | .arg3 => writeArg 3 v s
  | .id | .version | .paramProbbits | .paramLower | .paramWmemsize | .paramNsym | .finfo | .state | .wptr | .wend
  | .wlim | .rptr | .rlim | .result | .total | .outlen | .fop => s

/-- A host write to CNT[i] (45_control.md R216). -/
def writeCnt (i : Nat) (v : Word) (s : State) : State :=
  if s.busy then flagAccess s else { dropTables s with cnt := setEntry s.cnt i v }

/-- A host write to a read-only window: ignored (20_memory.md R64), but flagged while BUSY (R72; log 14). -/
def writeReadOnly (s : State) : State := if s.busy then flagAccess s else s

/-- A host write to the WMEM window (45_control.md R217), little-endian (20_memory.md R65). -/
def writeWmem (a : Nat) (w : Width) (v : Word) (s : State) : State :=
  if s.busy then flagAccess s else { s with wmem := storeBytes s.wmem a (leBytes v (widthBytes w)) }

/-- A permitted host write (45_control.md R221). -/
def hostWrite (w : Width) (off : Nat) (v : Word) (s : State) : State :=
  match placeAt s.params.wmemSize off with
  | .reg r => writeReg r v s
  | .cnt i => writeCnt i v s
  | .cum _ | .symtab _ _ | .lut _ => writeReadOnly s
  | .wmem a => writeWmem a w v s
  | .reserved | .outside => s

/-- One host access: performed when permitted, refused otherwise (20_memory.md R68). -/
def hostAccess (a : Access) (s : State) : Host.Outcome State Fault Refusal :=
  match a with
  | .read w off =>
    if permitted s.params.wmemSize w off then .next (hostRead w off s) else .refused (.hostAccess a)
  | .write w off v =>
    if permitted s.params.wmemSize w off then .next (hostWrite w off v s) else .refused (.hostAccess a)

/-! ### Reset, and who moves next -/

/-- A reset pulse (70_reset_and_hazards.md R290): R49's values, the unspecified ones a new draw; a pending command is
abandoned. What the outside world does next is not the block's to lose (log 10). -/
def resetPulse (s : State) : State :=
  { State.afterReset s.params s.draws with
    inbox := s.inbox
    rdata := s.rdata }

/-- The next event and the state with it taken from the inbox; with nothing in the inbox the engine has the turn
(log 2; 70_reset_and_hazards.md R301). -/
def nextEvent (s : State) : Event × State :=
  match s.inbox with
  | [] => (.engine, s)
  | e :: rest => (e, { s with inbox := rest })

end Sys2Proof.Machine
end

