-- ==== Sys2Proof/Machine/Step.lean ====
section
/-! DEFINITION. One step: the next event happens to the block. The host's accesses, the engine's step and reset are
atomic with respect to each other (10_state.md R20, 20_memory.md R69, 60_exceptions.md R275). -/

namespace Sys2Proof.Machine

/-- One event (45_control.md R221, R212; 70_reset_and_hazards.md R290). -/
def stepEvent (e : Event) (s : State) : Host.Outcome State Fault Refusal :=
  match e with
  | .access a => hostAccess a s
  | .engine => engineTurn s
  | .reset => .next (resetPulse s)

/-- One step of the block: the oldest event of the inbox, the engine's turn when there is none. -/
def step (s : State) : Host.Outcome State Fault Refusal :=
  stepEvent (nextEvent s).1 (nextEvent s).2

/-- `s` with the command word w accepted and the engine's turn next, so that `step` runs exactly it (log 21). -/
def State.withFetchWord (s : State) (nbits w : Nat) : State := placeTableWord nbits w s

end Sys2Proof.Machine
end

