-- ==== Sys2Proof/Machine/HostLanguage.lean ====
section
/-! DEFINITION. The host command language (30_encoding.md R99, R100): each statement means its expansion into bus
accesses, and the host runs statements against the block one event at a time. -/

namespace Sys2Proof.Machine

/-- The primitive statements of 30_encoding.md R100; a value operand is a 32-bit word, an offset a number. -/
inductive HostStmt where
  | wr32 (off : Nat) (v : Word)
  | wr8 (off : Nat) (v : Byte)
  | rd32 (off : Nat)
  | rd8 (off : Nat)
  | issue (w : Word)
  | wait
  /-- `MNEMONIC a0, ..., ak`, k < 4: the ARGs given are written, the others keep their values. -/
  | command (i : Instr) (operands : List Word)
  | clrFault
  | clrDone
  /-- `LOAD a, b0 b1 ...`. -/
  | load (a : Nat) (bytes : List Byte)
  | setCnt (i : Nat) (v : Word)
deriving DecidableEq, Repr

/-- The offset of CMD (20_memory.md R61). -/
def offCmd : Nat := 0x020

/-- The offset of STATUS (20_memory.md R61). -/
def offStatus : Nat := 0x024

/-- The offset of CNT[i] (20_memory.md R62). -/
def offCnt (i : Nat) : Nat := 0x400 + 4 * i

/-- The offset of WMEM[a] (20_memory.md R63). -/
def offWmem (a : Nat) : Nat := 0x10000 + a

/-- `WR32 off, v`. -/
def wr32 (off : Nat) (v : Word) : Event := .access (.write .w32 off v)

/-- `WR8 off, v`. -/
def wr8 (off : Nat) (v : Byte) : Event := .access (.write .w8 off (v.setWidth 32))

/-- `RD32 off`. -/
def rd32 (off : Nat) : Event := .access (.read .w32 off)

/-- `RD8 off`. -/
def rd8 (off : Nat) : Event := .access (.read .w8 off)

/-- `WAIT`: the engine completes, then a poll of STATUS reads BUSY = 0 (log 25: polls that read BUSY = 1 are left
out). -/
def waitEvents : List Event := [.engine, rd32 offStatus]

/-- `WR32 ARG0, a0 ... WR32 ARGk, ak`, from ARG i on. -/
def argWrites (i : Nat) (vs : List Word) : List Event :=
  match vs with
  | [] => []
  | v :: rest => wr32 (0x030 + 4 * i) v :: argWrites (i + 1) rest

/-- The byte writes of `LOAD a, b0 b1 ...`. -/
def loadEvents (a : Nat) (bs : List Byte) : List Event :=
  match bs with
  | [] => []
  | b :: rest => wr8 (offWmem a) b :: loadEvents (a + 1) rest

/-- The expansion of a statement: "A statement's expansion is the only meaning it has" (30_encoding.md R100). -/
def expansion (st : HostStmt) : List Event :=
  match st with
  | .wr32 off v => [wr32 off v]
  | .wr8 off v => [wr8 off v]
  | .rd32 off => [rd32 off]
  | .rd8 off => [rd8 off]
  | .issue w => [wr32 offCmd w]
  | .wait => waitEvents
  | .command i vs => argWrites 0 (vs.take 4) ++ wr32 offCmd (encodeWord i) :: waitEvents
  | .clrFault => [wr32 offStatus 4]
  | .clrDone => [wr32 offStatus 2]
  | .load a bs => loadEvents a bs
  | .setCnt i v => [wr32 (offCnt i) v]

/-- Some events, one after the other, the engine's turns standing among them where the list has them; a fault or a
refusal of the model ends them. -/
def runEvents (es : List Event) (s : State) : Host.Outcome State Fault Refusal :=
  match es with
  | [] => .next s
  | e :: rest =>
    match stepEvent e s with
    | .next t => runEvents rest t
    | .fault f => .fault f
    | .refused r => .refused r

/-- The events with an engine's turn put before each one that the schedule marks (and after the last, where the schedule
goes on): 45_control.md R212 lets the engine's step fall "at some time after acceptance". -/
def withTurns (turns : List Bool) (es : List Event) : List Event :=
  match turns, es with
  | [], es => es
  | true :: _, [] => [.engine]
  | false :: _, [] => []
  | true :: ts, e :: rest => .engine :: e :: withTurns ts rest
  | false :: ts, e :: rest => e :: withTurns ts rest

/-- A host program, its statements in order (10_state.md R23, 70_reset_and_hazards.md R303), with the engine's turns
where the schedule puts them and at every WAIT. -/
def runProgramOn (turns : List Bool) (p : List HostStmt) (s : State) : Host.Outcome State Fault Refusal :=
  runEvents (withTurns turns (p.flatMap expansion)) s

/-- A host program on the schedule that gives the engine a turn at WAIT only (DESIGN CHOICE, log 27: after an ISSUE with
no WAIT behind it the command stays pending; R212 leaves the time open, and `runProgramOn` takes any other). -/
def runProgram (p : List HostStmt) (s : State) : Host.Outcome State Fault Refusal := runProgramOn [] p s

end Sys2Proof.Machine
end

