-- ==== Sys2Proof/Machine/Container.lean ====
section
/-! DEFINITION. The packaged container, a normative host procedure over the block's commands (log 23;
48_container.md R230 to R242). The host drives the block only by the events of its language. -/

namespace Sys2Proof.Machine

/-- A host error: the result of a failed assertion, not a block fault (48_container.md R242). -/
inductive HostError where
  | pkgInvariant
  | pkgFraming
  | pkgMeta
deriving DecidableEq, Repr

/-- How a host procedure ends or goes on (48_container.md R242). -/
inductive Proc (α : Type) where
  /-- The procedure goes on with a host-side value. -/
  | ok (v : α) (s : State)
  /-- An assertion failed. -/
  | hostError (e : HostError) (s : State)
  /-- BLOCKOK found FAULT = 1: the block's STATUS, FINFO and FOP. -/
  | blockFault (status finfo fop : Word) (s : State)
  /-- The regions are not those R232 asks for: the host broke the duty of 70_reset_and_hazards.md R297, and the run is
  outside the spec (R303). Nothing was done. -/
  | dutyBroken
  /-- The model gave an access no step, or stopped. -/
  | stopped
deriving Repr

/-- The rest of a procedure, on the value and the block's state so far. -/
def Proc.bind {α β : Type} (p : Proc α) (k : α → State → Proc β) : Proc β :=
  match p with
  | .ok v s => k v s
  | .hostError e s => .hostError e s
  | .blockFault st fi fo s => .blockFault st fi fo s
  | .dutyBroken => .dutyBroken
  | .stopped => .stopped

/-- `ASSERT c, E`. -/
def assertHost (c : Bool) (e : HostError) (s : State) : Proc Unit :=
  if c then .ok () s else .hostError e s

/-- Statements of the host language. -/
def runStmts (p : List HostStmt) (s : State) : Proc Unit :=
  match runProgram p s with
  | .next t => .ok () t
  | .fault _ => .stopped
  | .refused _ => .stopped

/-- `v <- RD32 off` or `v <- RD8 off`. -/
def readInto (e : Event) (s : State) : Proc Word :=
  match stepEvent e s with
  | .next t =>
    match t.rdata with
    | some v => .ok v t
    | none => .stopped
  | .fault _ => .stopped
  | .refused _ => .stopped

/-- BLOCKOK: read STATUS; if FAULT = 1, end with the block fault (48_container.md). -/
def blockOk (s : State) : Proc Unit :=
  (readInto (rd32 offStatus) s).bind fun st t =>
    if st.getLsbD 2 then
      (readInto (rd32 0x02C) t).bind fun fi t => (readInto (rd32 0x064) t).bind fun fo t => .blockFault st fi fo t
    else .ok () t

/-- A command followed by BLOCKOK: "Any block fault in any step ends the procedure at once" (48_container.md R242). -/
def checked (i : Instr) (operands : List Word) (s : State) : Proc Unit :=
  (runStmts [.command i operands] s).bind fun _ t => blockOk t

/-- n bytes of the WMEM window from address a, read one at a time into the host's own memory (DESIGN CHOICE, log 28). -/
def readWindow (n a : Nat) (s : State) : Proc (List Byte) :=
  match n with
  | 0 => .ok [] s
  | k + 1 =>
    (readInto (rd8 (offWmem a)) s).bind fun v t =>
      (readWindow k (a + 1) t).bind fun bs t => .ok (v.setWidth 8 :: bs) t

/-- `ASSERT (RD32 CNT[i]) = 0, PKG_INVARIANT` for the given symbols (48_container.md R234, R235). -/
def assertZeroCounts (symbols : List Nat) (s : State) : Proc Unit :=
  match symbols with
  | [] => .ok () s
  | i :: rest =>
    (readInto (rd32 (offCnt i)) s).bind fun v t =>
      (assertHost (v == 0) .pkgInvariant t).bind fun _ t => assertZeroCounts rest t

/-- Symbols 2 to 255, which a binary input never has. -/
def nonBinarySymbols : List Nat := (List.range 254).map (· + 2)

/-- A number as an ARG operand. -/
def argWord (n : Nat) : Word := BitVec.ofNat 32 n

/-! ### Encode -/

/-- The working regions of a packaged encode or decode (48_container.md R232, R241). -/
structure PackLayout where
  p : Nat
  t0 : Nat
  b0 : Nat
  t1 : Nat
  b1 : Nat
  e0l : Nat
  e0e : Nat
  e1l : Nat
  e1e : Nat
  e2l : Nat
  e2e : Nat
deriving DecidableEq, Repr

/-- The example layout (48_container.md R232). -/
def exampleLayout : PackLayout where
  p := 0x0
  t0 := 0x80000
  b0 := 0x81000
  t1 := 0x83000
  b1 := 0x83100
  e0l := 0x90000
  e0e := 0xF0000
  e1l := 0x84000
  e1e := 0x88100
  e2l := 0x83200
  e2e := 0x83300

/-- The regions of a packaged encode of n bytes, each an address and a size (48_container.md R232). -/
def PackLayout.regions (L : PackLayout) (n : Nat) : List (Nat × Nat) :=
  [(L.p, n), (L.t0, 1024), (L.b0, 8192), (L.t1, 8), (L.b1, 64), (L.e0l, L.e0e - L.e0l), (L.e1l, L.e1e - L.e1l),
    (L.e2l, L.e2e - L.e2l)]

/-- The output regions have room: 2n + 4, 16388 and 132 bytes (48_container.md R232). -/
def PackLayout.roomy (L : PackLayout) (n : Nat) : Bool :=
  decide (L.e0l + (2 * n + 4) ≤ L.e0e) && decide (L.e1l + 16388 ≤ L.e1e) && decide (L.e2l + 132 ≤ L.e2e)

/-- No region overlaps a later one of the list (20_memory.md R78). -/
def disjoint (regions : List (Nat × Nat)) : Bool :=
  match regions with
  | [] => true
  | r :: rest => rest.all (fun q => !overlaps r.1 r.2 q.1 q.2) && disjoint rest

/-- The layout is one that R232 lets the host choose for n bytes: pairwise non-overlapping regions of WMEM, of the sizes
it states. -/
def PackLayout.admits (L : PackLayout) (size n : Nat) : Bool :=
  (L.regions n).all (fun r => inRange size r.1 r.2) && disjoint (L.regions n) && L.roomy n

/-- One layer: ENCODE, BLOCKOK, then `p <- RD32 WPTR; l <- RD32 OUTLEN` (48_container.md R233 to R235). -/
def encodeLayer (src n hi lim : Nat) (s : State) : Proc (Nat × Nat) :=
  (checked .encode [argWord src, argWord n, argWord hi, argWord lim] s).bind fun _ t =>
    (readInto (rd32 0x044) t).bind fun p t => (readInto (rd32 0x060) t).bind fun l t => .ok (p.toNat, l.toNat) t

/-- Layer 0 (48_container.md R233). -/
def encodeLayer0 (L : PackLayout) (payload : List Byte) (s : State) : Proc (Nat × Nat) :=
  (runStmts [.load L.p payload] s).bind fun _ t => encodeLayer L.p payload.length L.e0e L.e0l t

/-- Layer 1 (48_container.md R234). -/
def encodeLayer1 (L : PackLayout) (s : State) : Proc (Nat × Nat) :=
  (checked .stcnt [argWord L.t0, 256] s).bind fun _ t =>
    (checked .expand [argWord L.t0, 1024, argWord L.b0] t).bind fun _ t =>
      (encodeLayer L.b0 8192 L.e1e L.e1l t).bind fun pl t =>
        (assertZeroCounts nonBinarySymbols t).bind fun _ t => .ok pl t

/-- Layer 2 (48_container.md R235): the stream's place and length, and freq2. -/
def encodeLayer2 (L : PackLayout) (s : State) : Proc ((Nat × Nat) × (Nat × Nat)) :=
  (checked .stcnt [argWord L.t1, 2] s).bind fun _ t =>
    (checked .expand [argWord L.t1, 8, argWord L.b1] t).bind fun _ t =>
      (encodeLayer L.b1 64 L.e2e L.e2l t).bind fun pl t =>
        (readInto (rd32 (offCnt 0)) t).bind fun f20 t => (readInto (rd32 (offCnt 1)) t).bind fun f21 t =>
          (assertZeroCounts nonBinarySymbols t).bind fun _ t =>
            (assertHost (f20.toNat + f21.toNat == 64) .pkgInvariant t).bind fun _ t =>
              (assertHost (decide (f20.toNat < 256) && decide (f21.toNat < 256)) .pkgInvariant t).bind fun _ t =>
                (assertHost (decide (pl.2 < 256)) .pkgInvariant t).bind fun _ t =>
                  .ok (pl, (f20.toNat, f21.toNat)) t

/-- LE32(v) (48_container.md R236). -/
def le32 (v : Nat) : List Byte := leBytes (BitVec.ofNat 32 v) 4

/-- The packaged stream's layout (48_container.md R230, R236). -/
def assemble (f20 f21 : Nat) (s2 s1 s0 : List Byte) : List Byte :=
  [BitVec.ofNat 8 f20, BitVec.ofNat 8 f21, BitVec.ofNat 8 s2.length] ++ s2 ++ le32 s1.length ++ s1
    ++ le32 s0.length ++ s0

/-- Packaged encode in the regions of R232 (48_container.md R233 to R236). DESIGN CHOICE (log 28): R236 leaves to the host
where it builds the result; the model builds it in the host's own memory, as a list of bytes read out of the WMEM window by
8-bit reads. -/
def packagedEncodeIn (L : PackLayout) (payload : List Byte) (s : State) : Proc (List Byte) :=
  (encodeLayer0 L payload s).bind fun pl0 t =>
    (encodeLayer1 L t).bind fun pl1 t =>
      (encodeLayer2 L t).bind fun r2 t =>
        (readWindow r2.1.2 r2.1.1 t).bind fun s2 t =>
          (readWindow pl1.2 pl1.1 t).bind fun s1 t =>
            (readWindow pl0.2 pl0.1 t).bind fun s0 t => .ok (assemble r2.2.1 r2.2.2 s2 s1 s0) t

/-- Packaged encode (48_container.md R232 to R236): the host chooses regions as R232 says, before anything else. -/
def packagedEncode (L : PackLayout) (payload : List Byte) (s : State) : Proc (List Byte) :=
  if L.admits s.params.wmemSize payload.length then packagedEncodeIn L payload s else .dutyBroken

/-! ### Decode -/

/-- `MemRead(a, 4)` by the host: four byte reads (48_container.md R238). -/
def hostRead32 (a : Nat) (s : State) : Proc Nat :=
  (readWindow 4 a s).bind fun bs t => .ok (leValue bs) t

/-- Where the parts of a packaged stream stand (48_container.md R238). -/
structure Framing where
  f20 : Nat
  f21 : Nat
  a2 : Nat
  l2 : Nat
  a1 : Nat
  l1 : Nat
  a0 : Nat
  l0 : Nat
deriving DecidableEq, Repr

/-- The head of the stream: freq2 and the length of the layer-2 stream (48_container.md R238). -/
def parseHead (start n : Nat) (s : State) : Proc (Nat × Nat × Nat) :=
  (assertHost (decide (3 ≤ n)) .pkgFraming s).bind fun _ t =>
    (readInto (rd8 (offWmem start)) t).bind fun f20 t =>
      (readInto (rd8 (offWmem (start + 1))) t).bind fun f21 t =>
        (readInto (rd8 (offWmem (start + 2))) t).bind fun l2 t => .ok (f20.toNat, f21.toNat, l2.toNat) t

/-- Parsing and framing checks of the N bytes at S (48_container.md R238). -/
def parseStream (start n : Nat) (s : State) : Proc Framing :=
  (parseHead start n s).bind fun h t =>
    let a2 := start + 3
    let l2 := h.2.2
    (assertHost (decide (a2 + l2 + 4 ≤ start + n)) .pkgFraming t).bind fun _ t =>
      (hostRead32 (a2 + l2) t).bind fun l1 t =>
        let a1 := a2 + l2 + 4
        (assertHost (decide (a1 + l1 + 4 ≤ start + n)) .pkgFraming t).bind fun _ t =>
          (hostRead32 (a1 + l1) t).bind fun l0 t =>
            let a0 := a1 + l1 + 4
            (assertHost (a0 + l0 == start + n) .pkgFraming t).bind fun _ t =>
              (assertHost (h.1 + h.2.1 == 64) .pkgMeta t).bind fun _ t =>
                .ok ⟨h.1, h.2.1, a2, l2, a1, l1, a0, l0⟩ t

/-- Layer 2 of a packaged decode: it recovers freq1 (48_container.md R239). -/
def decodeLayer2 (L : PackLayout) (fr : Framing) (s : State) : Proc Unit :=
  (runStmts [.load L.t1 (le32 fr.f20 ++ le32 fr.f21)] s).bind fun _ t =>
    (checked .ldcnt [argWord L.t1, 2] t).bind fun _ t =>
      (checked .decode [argWord fr.a2, argWord fr.l2, argWord L.b1, 64] t).bind fun _ t =>
        (checked .pack [argWord L.b1, 64, argWord L.t1] t).bind fun _ t =>
          (checked .ldcnt [argWord L.t1, 2] t).bind fun _ t =>
            (readInto (rd32 (offCnt 0)) t).bind fun c0 t =>
              (readInto (rd32 (offCnt 1)) t).bind fun c1 t =>
                assertHost (c0.toNat + c1.toNat == 8192) .pkgMeta t

/-- Layer 1 of a packaged decode: it recovers freq0 (48_container.md R240). -/
def decodeLayer1 (L : PackLayout) (fr : Framing) (s : State) : Proc Unit :=
  (checked .decode [argWord fr.a1, argWord fr.l1, argWord L.b0, 8192] s).bind fun _ t =>
    (checked .pack [argWord L.b0, 8192, argWord L.t0] t).bind fun _ t =>
      checked .ldcnt [argWord L.t0, 256] t

/-- Layer 0 of a packaged decode: the payload, WMEM[out .. out+n) (48_container.md R241). -/
def decodeLayer0 (fr : Framing) (out cap : Nat) (s : State) : Proc (List Byte) :=
  (checked .decode [argWord fr.a0, argWord fr.l0, argWord out, argWord cap] s).bind fun _ t =>
    (readInto (rd32 0x060) t).bind fun n t => readWindow n.toNat out t

/-- Packaged decode of the N bytes at S in WMEM, loaded by the host (48_container.md R238 to R241). -/
def packagedDecode (L : PackLayout) (start n out cap : Nat) (s : State) : Proc (List Byte) :=
  (parseStream start n s).bind fun fr t =>
    (decodeLayer2 L fr t).bind fun _ t =>
      (decodeLayer1 L fr t).bind fun _ t => decodeLayer0 fr out cap t

end Sys2Proof.Machine
end

