-- ==== Sys2Proof/Safety.lean ====
section
/-! DEFINITION. What counts as a safe run: the invariants of 10_state.md R26, R47 and R48 and of the memory, and the end
of a run (70_reset_and_hazards.md R303). -/

namespace Sys2Proof.Machine

/-- WMEM is in canonical form and lists no address outside [0, WMEM_SIZE). -/
def State.memoryOk (s : State) : Prop :=
  Memory.wf s.wmem = true ∧ memoryWithin s.params.wmemSize s.wmem = true

/-- CUM is the normalization of CNT, and TOTAL the sum of the counts (10_state.md R26, R39). -/
def State.cumCoherent (s : State) : Prop :=
  rawTotal s.cnt ≤ 0xFFFFFFFF ∧ s.total.toNat = rawTotal s.cnt ∧
    ∃ c, normalize s.cnt = .ok c ∧ s.cum = storeCum c

/-- The validity bits mean what 10_state.md R26 says: CUMV "CUM holds the normalization of the current CNT", SYMV
"SYMTAB holds the descriptors of the current CUM", LUTV "LUT holds the lookup table of the current CUM". -/
def State.tablesCoherent (s : State) : Prop :=
  (s.cumv = true → s.cumCoherent) ∧ (s.symv = true → s.symtab = buildSymtab s.cum) ∧
    (s.lutv = true → s.lut = buildLut s.cum)

/-- 10_state.md R47. -/
def State.modeGuards (s : State) : Prop :=
  (s.mode = .enc → s.symv = true) ∧ (s.mode = .dec → s.lutv = true) ∧ (s.lutv = true → s.cumv = true) ∧
    (s.symv = true → s.cumv = true)

/-- 10_state.md R48: LOWER <= STATE < 2^31 and WLIM <= WPTR <= WEND <= WMEM_SIZE in MODE = ENC. -/
def State.encoderBounds (s : State) : Prop :=
  s.mode = .enc →
    Config.lower ≤ s.state.toNat ∧ s.state.toNat < 2 ^ 31 ∧ s.wlim.toNat ≤ s.wptr.toNat ∧
      s.wptr.toNat ≤ s.wend.toNat ∧ s.wend.toNat ≤ s.params.wmemSize

/-- In MODE = DEC the unread input is a region of WMEM (42_rans_codec.md R156, R159). -/
def State.decoderBounds (s : State) : Prop :=
  s.mode = .dec → s.rptr.toNat ≤ s.rlim.toNat ∧ s.rlim.toNat ≤ s.params.wmemSize

/-- A pending command excludes DONE and FAULT, and DONE excludes FAULT (45_control.md R211, R212; 60_exceptions.md R273,
R275). -/
def State.handshakeOk (s : State) : Prop :=
  (s.busy = true → s.done = false ∧ s.fault = none) ∧ (s.done = true → s.fault = none)

/-- The invariant of a run: what every step keeps. -/
structure State.Inv (s : State) : Prop where
  params : s.params.legal = true
  memory : s.memoryOk
  tables : s.tablesCoherent
  modes : s.modeGuards
  encoder : s.encoderBounds
  decoder : s.decoderBounds
  handshake : s.handshakeOk

/-- The end of a run: the host has nothing more to do and STATUS reads BUSY = 0 (70_reset_and_hazards.md R303). -/
def State.runEnded (s : State) : Bool := s.inbox.isEmpty && !s.busy

/-- A faulted run: it has ended with FAULT = 1, and its result is only the fault record (70_reset_and_hazards.md R303). -/
def State.faultedRun (s : State) : Bool := s.runEnded && s.fault.isSome

end Sys2Proof.Machine
end

