-- ==== Sys2Proof/Certificates/Slice0/Obligations.lean ====
section
/-! DEFINITION. The statements for the provers. Each is about every state and every operand; the helpers in
Sys2Proof.Claims spell out the fault record and the arithmetic of the rules in the spec's own terms. -/

namespace Sys2Proof.Claims

open Sys2Proof.Machine

/-- The command has completed, its own effect having led to `s` (45_control.md R212). -/
def completed (s : State) : State := { s with done := true, latch := none }

/-- The fault record of 60_exceptions.md R270 on `s`, for the latched command `l`; nothing else changes. -/
def faulted (l : Latch) (c : FaultCode) (info : Word) (s : State) : State :=
  { s with fault := some c, finfo := info, fop := l.word.extractLsb' 0 8, outlen := 0, latch := none }

/-- An abortive fault (60_exceptions.md R269): the record, and MODE = IDLE. `draws` is the model's own counter. -/
def aborted (l : Latch) (c : FaultCode) (info : Word) (s : State) : State :=
  { faulted l c info s with mode := .idle, draws := s.draws + 1 }

/-- CNT[0] + ... + CNT[n-1]. -/
def countSum (cnt : Vector Word 256) (n : Nat) : Nat := ((cnt.toList.take n).map BitVec.toNat).sum

/-- floor_div(SCALE * C[i], total) (40_frequency_model.md R113). -/
def scaled (cnt : Vector Word 256) (i : Nat) : Nat := 16384 * countSum cnt i / countSum cnt 256

/-- One visit of the collision scan, at symbol i, on CUM as it now is (40_frequency_model.md R114). -/
def repairStep (cnt : Vector Word 256) (cum : Vector Nat 257) (i : Nat) : Vector Nat 257 :=
  if entry cnt i ≠ 0 ∧ entry cum (i + 1) = entry cum i then
    match donor cum with
    | some d => steal cum d i
    | none => cum
  else cum

/-- The rescale of R113, then the scan of R114 over i = 0, 1, ..., 255. -/
def scanned (cnt : Vector Word 256) : Vector Nat 257 :=
  (List.range 256).foldl (repairStep cnt) (tabulate 257 (scaled cnt))

/-- CUM[j+1] - CUM[j]. -/
def width (cum : Vector Nat 257) (j : Nat) : Nat := entry cum (j + 1) - entry cum j

/-- The start of symbol i's interval. -/
def startOf (cum : Vector Word 257) (i : Nat) : Nat := (entry cum i).toNat

/-- The end of symbol i's interval. -/
def endOf (cum : Vector Word 257) (i : Nat) : Nat := (entry cum (i + 1)).toNat

/-- (CUM[i+1] - CUM[i]) mod 2^32 (41_symbol_tables.md R130). -/
def freq (cum : Vector Word 257) (i : Nat) : Nat := (entry cum (i + 1) - entry cum i).toNat

/-- Symbol i owns slot k: CUM[i] <= k < CUM[i+1] (41_symbol_tables.md R138). -/
abbrev owns (cum : Vector Word 257) (i k : Nat) : Prop := startOf cum i ≤ k ∧ k < endOf cum i

/-- The symbol's slot is in range: s <= SCALE and f <= SCALE - s (41_symbol_tables.md R131). -/
abbrev slotOk (cum : Vector Word 257) (i : Nat) : Prop := startOf cum i ≤ 16384 ∧ freq cum i ≤ 16384 - startOf cum i

/-- BitPos (44_bit_packer.md). -/
def posOf (o : BitOrder) (k : Nat) : Nat :=
  match o with
  | .lsbFirst => k
  | .msbFirst => 7 - k

/-- x after k turns of `x <- ((x << 8) | WMEM[p]) mod 2^32; p <- p + 1` (42_rans_codec.md R159). -/
def shiftIn (m : Memory) (x p k : Nat) : Nat :=
  match k with
  | 0 => x
  | j + 1 => (shiftIn m x p j * 256 + (readByte m (p + j)).toNat) % 2 ^ 32

/-- The advanced value of a DECGET (42_rans_codec.md R157, R158), from the looked-up symbol. -/
def advanced (s : State) (sym : Byte) : Nat :=
  (endOf s.cum sym.toNat - startOf s.cum sym.toNat) * (s.state.toNat / 2 ^ 14) + s.state.toNat % 2 ^ 14
    - startOf s.cum sym.toNat

/-- The symbol a DECGET looks up (42_rans_codec.md R157). -/
def lookedUp (s : State) : Byte := entry s.lut (s.state.toNat % 2 ^ 14)

/-- A command issued by itself on the operands `o`, where it completes without a fault. -/
def completes (i : Instr) (o : Operands) (s : State) : Option State :=
  match exec i { s with latch := some ⟨encodeWord i, o⟩ } with
  | .next t => if t.fault = none then some t else none
  | .fault _ => none
  | .refused _ => none

/-- Commands issued one after the other, where all complete without a fault. -/
def completesAll (cs : List (Instr × Operands)) (s : State) : Option State :=
  match cs with
  | [] => some s
  | c :: rest =>
    match completes c.1 c.2 s with
    | some t => completesAll rest t
    | none => none

/-- n DECGETs, each followed by a store of RESULT at the next address from `dst` on. -/
def decgetAll (n dst : Nat) (o : Operands) (s : State) : Option State :=
  match n with
  | 0 => some s
  | k + 1 =>
    match completes .decget o s with
    | some t => decgetAll k (dst + 1) o { t with wmem := writeByte t.wmem dst t.result }
    | none => none

/-- Memory reads alike outside [lo, hi). -/
def sameOutside (m m' : Memory) (lo hi : Nat) : Prop := ∀ a, a < lo ∨ hi ≤ a → readByte m' a = readByte m a

/-- Two buffers overlap (20_memory.md R78). -/
abbrev meets (a n b m : Nat) : Prop := 0 < n ∧ 0 < m ∧ a < b + m ∧ b < a + n

/-- ENCODE's operand checks pass (43_block_codec.md R180). -/
abbrev encodeOperandsOk (s : State) (o : Operands) : Prop :=
  o.a0.toNat + o.a1.toNat ≤ s.params.wmemSize ∧ o.a3.toNat ≤ o.a2.toNat ∧ o.a2.toNat ≤ s.params.wmemSize ∧
    ¬ meets o.a0.toNat o.a1.toNat o.a3.toNat (o.a2.toNat - o.a3.toNat)

/-- DECODE's operand checks pass (43_block_codec.md R183). -/
abbrev decodeOperandsOk (s : State) (o : Operands) : Prop :=
  o.a0.toNat + o.a1.toNat ≤ s.params.wmemSize ∧ o.a2.toNat + o.a3.toNat ≤ s.params.wmemSize ∧
    ¬ meets o.a0.toNat o.a1.toNat o.a2.toNat o.a3.toNat

/-- The number of each fault code in STATUS.FCODE (60_exceptions.md R261), 0x00 for none. -/
def fcodes : List (Option FaultCode × Byte) :=
  [(none, 0x00), (some .noDonor, 0x01), (some .range, 0x02), (some .zeroFreq, 0x03), (some .badCmd, 0x04),
    (some .seq, 0x05), (some .badAddr, 0x06), (some .overlap, 0x07), (some .outOverflow, 0x08),
    (some .inUnderrun, 0x09), (some .totalOverflow, 0x0A), (some .badBit, 0x0B), (some .emptyModel, 0x0C)]

/-- An access the block performs (20_memory.md R66, R67, and inside the map R68; the reserved offsets from 0xC04 by
log 13). -/
abbrev accessAllowed (size : Nat) (w : Width) (off : Nat) : Prop :=
  ((off < 0xC04 ∨ (0x1000 ≤ off ∧ off < 0x2000)) ∧ w = .w32 ∧ off % 4 = 0) ∨
    (0xC04 ≤ off ∧ off + widthBytes w ≤ 0x1000) ∨ (0x2000 ≤ off ∧ off + widthBytes w ≤ 0x4000) ∨
    (0x8000 ≤ off ∧ off + widthBytes w ≤ 0x10000) ∨
    (0x4000 ≤ off ∧ off + widthBytes w ≤ 0x8000 ∧ off % widthBytes w = 0) ∨
    (0x10000 ≤ off ∧ off + widthBytes w ≤ 0x10000 + size ∧ off % widthBytes w = 0)

/-- The reset values that 10_state.md R49 states, the registers as the host reads them. -/
def resetValues (s : State) : Prop :=
  s.args = ⟨0, 0, 0, 0⟩ ∧ s.state = 0 ∧ s.cmd = 0 ∧ statusWord s = 0 ∧ ctrlWord s = 0 ∧ s.finfo = 0 ∧ s.fop = 0 ∧
    s.wptr = 0 ∧ s.wend = 0 ∧ s.wlim = 0 ∧ s.rptr = 0 ∧ s.rlim = 0 ∧ s.result = 0 ∧ s.total = 0 ∧ s.outlen = 0 ∧
    (∀ i, i < 256 → entry s.cnt i = 0) ∧ s.latch = none ∧ irq s = false ∧
    regValue .id s = 0x52414E53 ∧ regValue .version s = 1 ∧ regValue .paramProbbits s = 14 ∧
    regValue .paramLower s = 0x00800000 ∧ regValue .paramWmemsize s = BitVec.ofNat 32 s.params.wmemSize ∧
    regValue .paramNsym s = 256

/-- A host access that the block performs, or the engine's turn: no reset pulse, which abandons a pending command
(70_reset_and_hazards.md R290). -/
def eventAllowed (size : Nat) (e : Event) : Prop :=
  match e with
  | .access (.read w off) => accessAllowed size w off
  | .access (.write w off _) => accessAllowed size w off
  | .engine => True
  | .reset => False

/-- Two states agree on everything a running command reads or writes, but for DONE, FAULT and the counter `draws`. -/
def sameForEngine (s t : State) : Prop :=
  t = { s with
    accerr := t.accerr
    cmdovr := t.cmdovr
    ie := t.ie
    done := t.done
    fault := t.fault
    rdata := t.rdata
    draws := t.draws }

end Sys2Proof.Claims

section

open Sys2Proof Sys2Proof.Machine Sys2Proof.Claims

/-! ### Control -/

/-- 45_control.md R210: NOP completes and changes nothing but the handshake. -/
def Obligations.NopCompletesWithoutEffect : Prop :=
  ∀ (s : State) (l : Latch), s.latch = some l → exec .nop s = .next (completed s)

/-! ### Frequency model -/

/-- 40_frequency_model.md R110: COUNT faults BAD_ADDR when its buffer is out of range; otherwise it completes, each entry
of CNT is the number of occurrences of its symbol, their sum is len, the model is invalidated, and nothing else changes
(all of memory is kept). -/
def Obligations.CountTalliesTheBuffer : Prop :=
  ∀ (s : State) (l : Latch), s.latch = some l →
    (s.params.wmemSize < l.ops.a0.toNat + l.ops.a1.toNat →
      exec .count s = .next (faulted l .badAddr 0 s)) ∧
    (l.ops.a0.toNat + l.ops.a1.toNat ≤ s.params.wmemSize →
      ∃ t, exec .count s = .next t ∧
        t = completed { s with cnt := t.cnt, mode := .idle, cumv := false, symv := false, lutv := false } ∧
        (∀ v : Byte, (entry t.cnt v.toNat).toNat = (loadBytes s.wmem l.ops.a0.toNat l.ops.a1.toNat).count v) ∧
        countSum t.cnt 256 = l.ops.a1.toNat)

/-- 40_frequency_model.md R113, R114, R118, R119, R120: every NORM whose total fits in 32 bits completes (so NO_DONOR is
never raised); TOTAL and the validity bits are as R118 says, CUM is all zero for a total of 0 and otherwise the rescale of
R113 with each collision repaired in increasing symbol order (R114, on CUM as already repaired); it meets R119, where no
counted symbol collides it is the rescale itself, and nothing else changes. -/
def Obligations.NormMeetsItsPostconditions : Prop :=
  ∀ (s : State) (l : Latch), s.latch = some l → countSum s.cnt 256 ≤ 0xFFFFFFFF →
    ∃ t, exec .norm s = .next t ∧
      t = completed { s with
        cum := t.cum, total := t.total, mode := .idle, cumv := true, symv := false, lutv := false } ∧
      t.total.toNat = countSum s.cnt 256 ∧
      (countSum s.cnt 256 = 0 → ∀ i, i ≤ 256 → entry t.cum i = 0) ∧
      (0 < countSum s.cnt 256 →
        entry t.cum 0 = 0 ∧ (entry t.cum 256).toNat = 16384 ∧
          (∀ i, i < 256 → startOf t.cum i ≤ endOf t.cum i) ∧
          (∀ i, i < 256 → (entry s.cnt i ≠ 0 ↔ startOf t.cum i < endOf t.cum i)) ∧
          ((List.range 256).map fun i => endOf t.cum i - startOf t.cum i).sum = 16384 ∧
          (∀ i, i ≤ 256 → (entry t.cum i).toNat = entry (scanned s.cnt) i) ∧
          ((∀ i, i < 256 → entry s.cnt i ≠ 0 → scaled s.cnt i < scaled s.cnt (i + 1)) →
            ∀ i, i ≤ 256 → (entry t.cum i).toNat = scaled s.cnt i))

/-- 40_frequency_model.md R115: the donor is the lowest index among the symbols of the smallest width greater than 1,
and there is none exactly when no width is greater than 1. -/
def Obligations.DonorIsLowestOfSmallestWidth : Prop :=
  ∀ (cum : Vector Nat 257),
    (∀ d, donor cum = some d ↔
      d < 256 ∧ 1 < width cum d ∧
        ∀ j, j < 256 → 1 < width cum j → width cum d ≤ width cum j ∧ (width cum j = width cum d → d ≤ j)) ∧
    (donor cum = none ↔ ∀ j, j < 256 → width cum j ≤ 1)

/-- 40_frequency_model.md R116: the donor's width drops by 1, the recipient's rises from 0 to 1, every other width and
the ends of the table are unchanged. -/
def Obligations.StealMovesOneUnit : Prop :=
  ∀ (cum : Vector Nat 257) (d r : Nat), d < 256 → r < 256 → (∀ i, i < 256 → entry cum i ≤ entry cum (i + 1)) →
    1 < width cum d → width cum r = 0 →
    width (steal cum d r) d = width cum d - 1 ∧ width (steal cum d r) r = 1 ∧
      (∀ j, j < 256 → j ≠ d → j ≠ r → width (steal cum d r) j = width cum j) ∧
      entry (steal cum d r) 0 = entry cum 0 ∧ entry (steal cum d r) 256 = entry cum 256

/-- 40_frequency_model.md R112 and the TOTAL_OVERFLOW row of 60_exceptions.md R269: FINFO is the total mod 2^32, the
validity bits are 0, nothing is left unspecified and nothing else changes. -/
def Obligations.NormTotalOverflowFaults : Prop :=
  ∀ (s : State) (l : Latch), s.latch = some l → 0xFFFFFFFF < countSum s.cnt 256 →
    exec .norm s = .next (aborted l .totalOverflow (BitVec.ofNat 32 (countSum s.cnt 256))
      { s with cumv := false, symv := false, lutv := false })

/-- 40_frequency_model.md R121: STCNT faults BAD_ADDR when k or its buffer is out of range; otherwise it stores the first k
counts little-endian, sets OUTLEN, and changes no other byte and no other state. -/
def Obligations.StcntStoresCountsLittleEndian : Prop :=
  ∀ (s : State) (l : Latch), s.latch = some l →
    (256 < l.ops.a1.toNat ∨ s.params.wmemSize < l.ops.a0.toNat + 4 * l.ops.a1.toNat →
      exec .stcnt s = .next (faulted l .badAddr 0 s)) ∧
    (l.ops.a1.toNat ≤ 256 → l.ops.a0.toNat + 4 * l.ops.a1.toNat ≤ s.params.wmemSize →
      ∃ t, exec .stcnt s = .next t ∧
        t = completed { s with wmem := t.wmem, outlen := BitVec.ofNat 32 (4 * l.ops.a1.toNat) } ∧
        (∀ i j, i < l.ops.a1.toNat → j < 4 →
          readByte t.wmem (l.ops.a0.toNat + 4 * i + j) = (entry s.cnt i).extractLsb' (8 * j) 8) ∧
        sameOutside s.wmem t.wmem l.ops.a0.toNat (l.ops.a0.toNat + 4 * l.ops.a1.toNat))

/-- 40_frequency_model.md R122: LDCNT faults BAD_ADDR when k or its buffer is out of range; otherwise it loads the first k
counts from little-endian words, zeroes the rest, invalidates the model, and changes nothing else (all of memory is
kept). -/
def Obligations.LdcntLoadsCountsLittleEndian : Prop :=
  ∀ (s : State) (l : Latch), s.latch = some l →
    (256 < l.ops.a1.toNat ∨ s.params.wmemSize < l.ops.a0.toNat + 4 * l.ops.a1.toNat →
      exec .ldcnt s = .next (faulted l .badAddr 0 s)) ∧
    (l.ops.a1.toNat ≤ 256 → l.ops.a0.toNat + 4 * l.ops.a1.toNat ≤ s.params.wmemSize →
      ∃ t, exec .ldcnt s = .next t ∧
        t = completed { s with cnt := t.cnt, mode := .idle, cumv := false, symv := false, lutv := false } ∧
        (∀ i j, i < l.ops.a1.toNat → j < 4 →
          (entry t.cnt i).extractLsb' (8 * j) 8 = readByte s.wmem (l.ops.a0.toNat + 4 * i + j)) ∧
        (∀ i, l.ops.a1.toNat ≤ i → i < 256 → entry t.cnt i = 0))

/-! ### Symbol tables -/

/-- 41_symbol_tables.md R132 to R135: with CUMV = 1 and every slot in range SYMTAB completes; each descriptor is as the
rules say, SYMV = 1, and nothing else changes. -/
def Obligations.SymtabBuildsDescriptors : Prop :=
  ∀ (s : State) (l : Latch), s.latch = some l → s.cumv = true → (∀ i, i < 256 → slotOk s.cum i) →
    ∃ t, exec .symtab s = .next t ∧ t = completed { s with symtab := t.symtab, symv := true } ∧
      ∀ i, i < 256 →
        (entry t.symtab i).thr.toNat = 131072 * freq s.cum i ∧
        (entry t.symtab i).cmpl.toNat = 16384 - freq s.cum i ∧
        (freq s.cum i < 2 →
          (entry t.symtab i).rcp = 0xFFFFFFFF ∧ (entry t.symtab i).shift = 0 ∧
            (entry t.symtab i).bias.toNat = startOf s.cum i + 16384 - 1) ∧
        (2 ≤ freq s.cum i →
          ∃ sh, freq s.cum i ≤ 2 ^ sh ∧ (∀ n, freq s.cum i ≤ 2 ^ n → sh ≤ n) ∧
            (entry t.symtab i).rcp.toNat = (2 ^ (sh + 31) + freq s.cum i - 1) / freq s.cum i ∧
            (entry t.symtab i).shift.toNat = sh - 1 ∧
            (entry t.symtab i).bias.toNat = startOf s.cum i)

/-- 41_symbol_tables.md R131 and the RANGE row of 60_exceptions.md R269: the first out-of-range symbol is reported, SYMV
= 0, only SYMTAB is left unspecified. -/
def Obligations.SymtabRangeReportsFirstSymbol : Prop :=
  ∀ (s : State) (l : Latch) (i : Nat), s.latch = some l → s.cumv = true → i < 256 → ¬ slotOk s.cum i →
    (∀ j, j < i → slotOk s.cum j) →
    ∃ t, exec .symtab s = .next t ∧
      t = aborted l .range (BitVec.ofNat 32 i) { s with symv := false, symtab := t.symtab }

/-- 41_symbol_tables.md R138: LUTGEN faults SEQ(1) when CUMV = 0; otherwise it completes, each slot with one owner holds
it, each slot with none holds 0, LUTV = 1, and nothing else changes. -/
def Obligations.LutgenMapsEverySlot : Prop :=
  ∀ (s : State) (l : Latch), s.latch = some l →
    (s.cumv = false → exec .lutgen s = .next (faulted l .seq 1 s)) ∧
    (s.cumv = true →
      ∃ t, exec .lutgen s = .next t ∧ t = completed { s with lut := t.lut, lutv := true } ∧
        ∀ k, k < 16384 →
          (∀ i, i < 256 → owns s.cum i k → (∀ j, j < 256 → owns s.cum j k → j = i) → (entry t.lut k).toNat = i) ∧
          ((∀ i, i < 256 → ¬ owns s.cum i k) → entry t.lut k = 0))

/-- 41_symbol_tables.md R139: with a model of a nonempty count table and its LUT, every slot has exactly one owner,
LUT[k], and that symbol has a nonzero count. -/
def Obligations.LutOwnersHaveCounts : Prop :=
  ∀ (s : State), s.tablesCoherent → s.cumv = true → s.lutv = true → s.total ≠ 0 →
    ∀ k, k < 16384 →
      owns s.cum (entry s.lut k).toNat k ∧ entry s.cnt (entry s.lut k).toNat ≠ 0 ∧
        ∀ i, i < 256 → owns s.cum i k → i = (entry s.lut k).toNat

/-- 41_symbol_tables.md R137: the reciprocal and the stored shift divide exactly for 2 <= f <= SCALE and x < 2^31, and
for f = 1 they give x - 1. -/
def Obligations.ReciprocalDividesExactly : Prop :=
  (∀ f x : Nat, 2 ≤ f → f ≤ 16384 → x < 2 ^ 31 → x * reciprocalOf f / 2 ^ 32 / 2 ^ storedShiftOf f = x / f) ∧
    (∀ x : Nat, 1 ≤ x → x ≤ 2 ^ 32 → x * reciprocalOf 1 / 2 ^ 32 / 2 ^ storedShiftOf 1 = x - 1)

/-! ### The rANS primitives -/

/-- 42_rans_codec.md R150: ENCINIT faults SEQ(2) when SYMV = 0 and BAD_ADDR when its region is not one; otherwise it
completes, and this is its whole effect. -/
def Obligations.EncinitOpensTheEncoder : Prop :=
  ∀ (s : State) (l : Latch), s.latch = some l →
    (s.symv = false → exec .encinit s = .next (faulted l .seq 2 s)) ∧
    (s.symv = true → l.ops.a0.toNat < l.ops.a1.toNat ∨ s.params.wmemSize < l.ops.a0.toNat →
      exec .encinit s = .next (faulted l .badAddr 0 s)) ∧
    (s.symv = true → l.ops.a1.toNat ≤ l.ops.a0.toNat → l.ops.a0.toNat ≤ s.params.wmemSize →
      exec .encinit s = .next (completed { s with
        state := 0x00800000, wend := l.ops.a0, wptr := l.ops.a0, wlim := l.ops.a1, mode := .enc }))

/-- 42_rans_codec.md R152, R153: with k the number of turns of the renormalization loop, ENCPUT completes when k bytes of
room are left: the k low bytes of STATE go down from WPTR - 1, STATE is updated from the rest, and no other byte and no
other state changes. -/
def Obligations.EncputEmitsAndInserts : Prop :=
  ∀ (s : State) (l : Latch) (sym : Byte) (k : Nat), s.latch = some l → s.mode = .enc →
    (entry s.symtab sym.toNat).thr ≠ 0 → s.wlim.toNat ≤ s.wptr.toNat → s.wptr.toNat ≤ s.params.wmemSize →
    s.state.toNat / 256 ^ k < (entry s.symtab sym.toNat).thr.toNat →
    (∀ j, j < k → (entry s.symtab sym.toNat).thr.toNat ≤ s.state.toNat / 256 ^ j) →
    k ≤ s.wptr.toNat - s.wlim.toNat →
    ∃ t, exec (.encput sym) s = .next t ∧
      t = completed { s with wmem := t.wmem, wptr := s.wptr - BitVec.ofNat 32 k, state := t.state } ∧
      t.state.toNat =
        (s.state.toNat / 256 ^ k + (entry s.symtab sym.toNat).bias.toNat +
          s.state.toNat / 256 ^ k * (entry s.symtab sym.toNat).rcp.toNat / 2 ^ 32 /
            2 ^ (entry s.symtab sym.toNat).shift.toNat * (entry s.symtab sym.toNat).cmpl.toNat) % 2 ^ 32 ∧
      (∀ j, j < k → readByte t.wmem (s.wptr.toNat - 1 - j) = BitVec.ofNat 8 (s.state.toNat / 256 ^ j)) ∧
      sameOutside s.wmem t.wmem (s.wptr.toNat - k) s.wptr.toNat

/-- 42_rans_codec.md R152 and the OUT_OVERFLOW row of 60_exceptions.md R269: when the loop would need more bytes than
there is room for, FINFO is the WPTR reached (WLIM), WPTR is left somewhere in [WLIM, WPTR at entry], and only
WMEM[WLIM .. WPTR at entry) is left unspecified beside it. -/
def Obligations.EncputOutOfRoomFaults : Prop :=
  ∀ (s : State) (l : Latch) (sym : Byte), s.latch = some l → s.mode = .enc →
    (entry s.symtab sym.toNat).thr ≠ 0 → s.wlim.toNat ≤ s.wptr.toNat → s.wptr.toNat ≤ s.params.wmemSize →
    (∀ j, j ≤ s.wptr.toNat - s.wlim.toNat → (entry s.symtab sym.toNat).thr.toNat ≤ s.state.toNat / 256 ^ j) →
    ∃ t, exec (.encput sym) s = .next t ∧
      t = aborted l .outOverflow s.wlim { s with wptr := t.wptr, wmem := t.wmem } ∧
      s.wlim.toNat ≤ t.wptr.toNat ∧ t.wptr.toNat ≤ s.wptr.toNat ∧
      sameOutside s.wmem t.wmem s.wlim.toNat s.wptr.toNat

/-- 42_rans_codec.md R154: for a symbol with start st and frequency f >= 1, from LOWER <= STATE < 2^31, ENCPUT emits at
most 2 bytes and is exact, with the renormalization bound and the state bound. -/
def Obligations.EncputIsExactAndBounded : Prop :=
  ∀ (s : State) (l : Latch) (sym : Byte) (st f : Nat), s.latch = some l → s.mode = .enc → 1 ≤ f → st + f ≤ 16384 →
    entry s.symtab sym.toNat = descriptor st f → 2 ^ 23 ≤ s.state.toNat → s.state.toNat < 2 ^ 31 →
    s.wlim.toNat + 2 ≤ s.wptr.toNat → s.wptr.toNat ≤ s.params.wmemSize →
    ∃ t k, exec (.encput sym) s = .next t ∧ k ≤ 2 ∧ t.wptr.toNat + k = s.wptr.toNat ∧
      2 ^ 9 * f ≤ s.state.toNat / 256 ^ k ∧ s.state.toNat / 256 ^ k < 2 ^ 17 * f ∧
      t.state.toNat = s.state.toNat / 256 ^ k / f * 16384 + s.state.toNat / 256 ^ k % f + st ∧
      2 ^ 23 ≤ t.state.toNat ∧ t.state.toNat < 2 ^ 31

/-- 42_rans_codec.md R155: ENCFLUSH faults SEQ(4) when MODE is not ENC and OUT_OVERFLOW(WPTR), before any write, with less
than 4 bytes of room; otherwise it stores the four bytes of STATE little-endian in front of the output, sets OUTLEN and
MODE = IDLE, keeps STATE, and changes no other byte and no other state. -/
def Obligations.EncflushStoresTheState : Prop :=
  ∀ (s : State) (l : Latch), s.latch = some l →
    (s.mode ≠ .enc → exec .encflush s = .next (faulted l .seq 4 s)) ∧
    (s.mode = .enc → s.wptr.toNat < s.wlim.toNat + 4 →
      exec .encflush s = .next (aborted l .outOverflow s.wptr s)) ∧
    (s.mode = .enc → s.wlim.toNat + 4 ≤ s.wptr.toNat → s.wptr.toNat ≤ s.params.wmemSize →
      ∃ t, exec .encflush s = .next t ∧
        t = completed { s with wmem := t.wmem, wptr := s.wptr - 4, outlen := s.wend - (s.wptr - 4), mode := .idle } ∧
        (∀ j, j < 4 → readByte t.wmem (s.wptr.toNat - 4 + j) = s.state.extractLsb' (8 * j) 8) ∧
        sameOutside s.wmem t.wmem (s.wptr.toNat - 4) s.wptr.toNat)

/-- 42_rans_codec.md R156: DECINIT faults SEQ(3) when LUTV = 0, BAD_ADDR when its buffer is out of range and
IN_UNDERRUN(src) when the stream has less than 4 bytes; otherwise it reads STATE little-endian, opens the input, and
changes nothing else (all of memory is kept). -/
def Obligations.DecinitReadsTheState : Prop :=
  ∀ (s : State) (l : Latch), s.latch = some l →
    (s.lutv = false → exec .decinit s = .next (faulted l .seq 3 s)) ∧
    (s.lutv = true → s.params.wmemSize < l.ops.a0.toNat + l.ops.a1.toNat →
      exec .decinit s = .next (faulted l .badAddr 0 s)) ∧
    (s.lutv = true → l.ops.a0.toNat + l.ops.a1.toNat ≤ s.params.wmemSize → l.ops.a1.toNat < 4 →
      exec .decinit s = .next (aborted l .inUnderrun l.ops.a0 s)) ∧
    (s.lutv = true → l.ops.a0.toNat + l.ops.a1.toNat ≤ s.params.wmemSize → 4 ≤ l.ops.a1.toNat →
      ∃ t, exec .decinit s = .next t ∧
        t = completed { s with
          state := t.state, rptr := l.ops.a0 + 4, rlim := l.ops.a0 + l.ops.a1, mode := .dec } ∧
        ∀ j, j < 4 → t.state.extractLsb' (8 * j) 8 = readByte s.wmem (l.ops.a0.toNat + j))

/-- 42_rans_codec.md R158, R159: with k the number of bytes the loop takes, DECGET completes when k bytes are left: the
looked-up symbol goes to RESULT, STATE is the advanced value with k bytes shifted in, RPTR moves by k, and nothing else
changes (all of memory is kept). The advanced value fits in 32 bits where the LUT law holds. -/
def Obligations.DecgetDecodesOneSymbol : Prop :=
  ∀ (s : State) (l : Latch) (k : Nat), s.latch = some l → s.mode = .dec → entry s.cum 256 ≠ 0 →
    s.rptr.toNat ≤ s.rlim.toNat → s.rlim.toNat ≤ s.params.wmemSize → k ≤ s.rlim.toNat - s.rptr.toNat →
    2 ^ 23 ≤ shiftIn s.wmem (advanced s (lookedUp s)) s.rptr.toNat k →
    (∀ j, j < k → shiftIn s.wmem (advanced s (lookedUp s)) s.rptr.toNat j < 2 ^ 23) →
    exec .decget s = .next (completed { s with
      state := BitVec.ofNat 32 (shiftIn s.wmem (advanced s (lookedUp s)) s.rptr.toNat k)
      rptr := s.rptr + BitVec.ofNat 32 k
      result := lookedUp s }) ∧
    (owns s.cum (lookedUp s).toNat (s.state.toNat % 2 ^ 14) → endOf s.cum (lookedUp s).toNat ≤ 16384 →
      advanced s (lookedUp s) < 2 ^ 32)

/-- 42_rans_codec.md R159 and the DECGET row of 60_exceptions.md R269: when the loop runs out of input, FINFO is RLIM,
RPTR is left somewhere in [RPTR at entry, RLIM], and nothing else is left unspecified. -/
def Obligations.DecgetUnderrunFaults : Prop :=
  ∀ (s : State) (l : Latch), s.latch = some l → s.mode = .dec → entry s.cum 256 ≠ 0 →
    s.rptr.toNat ≤ s.rlim.toNat → s.rlim.toNat ≤ s.params.wmemSize →
    (∀ j, j ≤ s.rlim.toNat - s.rptr.toNat →
      shiftIn s.wmem (advanced s (lookedUp s)) s.rptr.toNat j < 2 ^ 23) →
    ∃ t, exec .decget s = .next t ∧ t = aborted l .inUnderrun s.rlim { s with rptr := t.rptr } ∧
      s.rptr.toNat ≤ t.rptr.toNat ∧ t.rptr.toNat ≤ s.rlim.toNat

/-- 42_rans_codec.md R161: a DECGET over the same model and the bytes an ENCPUT emitted gives back its symbol and the
state before it, and consumes exactly those bytes. -/
def Obligations.DecgetInvertsEncput : Prop :=
  ∀ (s t u : State) (l l' : Latch) (sym : Byte),
    s.latch = some l → s.tablesCoherent → s.cumv = true → s.symv = true → s.mode = .enc → s.fault = none →
    2 ^ 23 ≤ s.state.toNat → s.state.toNat < 2 ^ 31 →
    exec (.encput sym) s = .next t → t.fault = none →
    u.latch = some l' → u.mode = .dec → u.cum = s.cum → u.lut = buildLut s.cum → u.state = t.state →
    u.rptr.toNat + (s.wptr.toNat - t.wptr.toNat) ≤ u.rlim.toNat → u.rlim.toNat ≤ u.params.wmemSize →
    (∀ j, j < s.wptr.toNat - t.wptr.toNat →
      readByte u.wmem (u.rptr.toNat + j) = readByte t.wmem (t.wptr.toNat + j)) →
    exec .decget u = .next (completed { u with
      state := s.state
      rptr := u.rptr + (s.wptr - t.wptr)
      result := sym })

/-- 42_rans_codec.md R151, R157 and their rows of 60_exceptions.md R269: the faults at the entry of ENCPUT and DECGET, which
leave everything but the record (and MODE, for the abortive ones) as it was. -/
def Obligations.PutAndGetEntryFaults : Prop :=
  ∀ (s : State) (l : Latch), s.latch = some l →
    (∀ sym : Byte,
      (s.mode ≠ .enc → exec (.encput sym) s = .next (faulted l .seq 4 s)) ∧
      (s.mode = .enc → (entry s.symtab sym.toNat).thr = 0 →
        exec (.encput sym) s = .next (aborted l .zeroFreq (sym.setWidth 32) s))) ∧
    (s.mode ≠ .dec → exec .decget s = .next (faulted l .seq 5 s)) ∧
    (s.mode = .dec → entry s.cum 256 = 0 → exec .decget s = .next (aborted l .emptyModel 0 s))

/-! ### The block codec -/

/-- 43_block_codec.md R182, R187: ENCODE completes whenever its operands are in order and the output region has 2n + 4
bytes; CNT, TOTAL, the pointers, OUTLEN and the flags are as R182 says, the stream begins with the flushed STATE, at
most 2n + 4 bytes are written, all of them in [WPTR, WEND), and nothing else changes. -/
def Obligations.EncodeCompletesInBoundedRoom : Prop :=
  ∀ (s : State) (l : Latch), s.latch = some l → s.params.legal = true → encodeOperandsOk s l.ops →
    l.ops.a3.toNat + 2 * l.ops.a1.toNat + 4 ≤ l.ops.a2.toNat →
    ∃ t, exec .encode s = .next t ∧
      t = completed { s with
        cnt := t.cnt, cum := t.cum, symtab := t.symtab, total := l.ops.a1, state := t.state, wptr := t.wptr
        wend := l.ops.a2, wlim := l.ops.a3, wmem := t.wmem, outlen := l.ops.a2 - t.wptr, mode := .idle
        cumv := true, symv := true, lutv := false } ∧
      t.tablesCoherent ∧
      (∀ v : Byte, (entry t.cnt v.toNat).toNat = (loadBytes s.wmem l.ops.a0.toNat l.ops.a1.toNat).count v) ∧
      l.ops.a3.toNat ≤ t.wptr.toNat ∧ t.wptr.toNat + t.outlen.toNat = l.ops.a2.toNat ∧ 4 ≤ t.outlen.toNat ∧
      t.outlen.toNat ≤ 2 * l.ops.a1.toNat + 4 ∧
      (∀ j, j < 4 → readByte t.wmem (t.wptr.toNat + j) = t.state.extractLsb' (8 * j) 8) ∧
      sameOutside s.wmem t.wmem t.wptr.toNat l.ops.a2.toNat

/-- The ENCODE and DECODE rows of 60_exceptions.md R269: an abortive fault of either keeps all state the row does not
name (its unspecified items stand free on both sides) and every byte outside the output region. -/
def Obligations.CompositeFaultsKeepUnnamedState : Prop :=
  ∀ (s t : State) (l : Latch) (c : FaultCode), s.latch = some l → s.fault = none → t.fault = some c →
    faultPrecise c = false →
    (exec .encode s = .next t →
      t = aborted l c t.finfo { s with
        cumv := false, symv := false, lutv := false, cnt := t.cnt, cum := t.cum, symtab := t.symtab
        total := t.total, state := t.state, wptr := t.wptr, wend := t.wend, wlim := t.wlim, wmem := t.wmem } ∧
      sameOutside s.wmem t.wmem l.ops.a3.toNat l.ops.a2.toNat) ∧
    (exec .decode s = .next t →
      t = aborted l c t.finfo { s with
        cumv := false, symv := false, lutv := false, cum := t.cum, symtab := t.symtab, lut := t.lut
        total := t.total, state := t.state, rptr := t.rptr, rlim := t.rlim, result := t.result, wmem := t.wmem } ∧
      sameOutside s.wmem t.wmem l.ops.a2.toNat (l.ops.a2.toNat + l.ops.a3.toNat))

/-- 43_block_codec.md R181: with its operand checks passed, ENCODE ends without a fault in a state exactly when COUNT,
NORM, SYMTAB, ENCINIT, an ENCPUT of each input byte (last first) and ENCFLUSH, issued one after the other, do. -/
def Obligations.EncodeRunsItsSteps : Prop :=
  ∀ (s t : State) (l : Latch), s.latch = some l → s.fault = none → encodeOperandsOk s l.ops →
    ((exec .encode s = .next t ∧ t.fault = none) ↔
      completesAll
        ([(.count, l.ops), (.norm, l.ops), (.symtab, l.ops), (.encinit, ⟨l.ops.a2, l.ops.a3, 0, 0⟩)] ++
          (loadBytes s.wmem l.ops.a0.toNat l.ops.a1.toNat).reverse.map (fun b => (.encput b, l.ops)) ++
          [(.encflush, l.ops)]) s = some t)

/-- 43_block_codec.md R184: with its operand checks passed, DECODE ends without a fault in a state exactly when NORM,
SYMTAB, LUTGEN, the capacity check, DECINIT and TOTAL DECGETs, each followed by its store, lead there one after the
other; OUTLEN is then TOTAL. Where the capacity check fails it faults OUT_OVERFLOW with FINFO the symbol count. -/
def Obligations.DecodeRunsItsSteps : Prop :=
  ∀ (s : State) (l : Latch), s.latch = some l → s.fault = none → decodeOperandsOk s l.ops →
    (∀ t, (exec .decode s = .next t ∧ t.fault = none) ↔
      ∃ u v, completesAll [(.norm, l.ops), (.symtab, l.ops), (.lutgen, l.ops), (.decinit, l.ops)] s = some u ∧
        u.total.toNat ≤ l.ops.a3.toNat ∧ decgetAll u.total.toNat l.ops.a2.toNat l.ops u = some v ∧
        t = { v with outlen := u.total }) ∧
    (∀ u, completesAll [(.norm, l.ops), (.symtab, l.ops), (.lutgen, l.ops)] s = some u →
      l.ops.a3.toNat < u.total.toNat →
      ∃ t, exec .decode s = .next t ∧ t.fault = some .outOverflow ∧ t.finfo = u.total ∧ t.fop = l.word.extractLsb' 0 8)

/-- 43_block_codec.md R184, R185 (with 42_rans_codec.md R160): DECODE completes whenever its operands are in order, the
counts fit the output buffer, and the stream is long enough for 2 bytes a symbol behind a state that is at least LOWER
(for no symbols, behind any state): TOTAL, OUTLEN, the flags and the pointers are as R185 says, RESULT is the last
output byte (unchanged when there is none), every output symbol has a nonzero count, and no byte outside the n output
bytes and no other state changes. -/
def Obligations.DecodeCompletesOnLongStreams : Prop :=
  ∀ (s : State) (l : Latch), s.latch = some l → s.params.legal = true → decodeOperandsOk s l.ops →
    countSum s.cnt 256 ≤ l.ops.a3.toNat → 4 + 2 * countSum s.cnt 256 ≤ l.ops.a1.toNat →
    (0 < countSum s.cnt 256 → 2 ^ 23 ≤ leValue (loadBytes s.wmem l.ops.a0.toNat 4)) →
    ∃ t, exec .decode s = .next t ∧
      t = completed { s with
        cum := t.cum, symtab := t.symtab, lut := t.lut, total := t.total, state := t.state, rptr := t.rptr
        rlim := l.ops.a0 + l.ops.a1, result := t.result, outlen := t.total, wmem := t.wmem, mode := .dec
        cumv := true, symv := true, lutv := true } ∧
      t.tablesCoherent ∧ t.total.toNat = countSum s.cnt 256 ∧
      l.ops.a0.toNat + 4 ≤ t.rptr.toNat ∧ t.rptr.toNat ≤ t.rlim.toNat ∧
      (countSum s.cnt 256 = 0 →
        t.result = s.result ∧ t.state.toNat = leValue (loadBytes s.wmem l.ops.a0.toNat 4)) ∧
      (0 < countSum s.cnt 256 →
        t.result = readByte t.wmem (l.ops.a2.toNat + countSum s.cnt 256 - 1) ∧ 2 ^ 23 ≤ t.state.toNat) ∧
      (∀ j, j < countSum s.cnt 256 → entry s.cnt (readByte t.wmem (l.ops.a2.toNat + j)).toNat ≠ 0) ∧
      sameOutside s.wmem t.wmem l.ops.a2.toNat (l.ops.a2.toNat + countSum s.cnt 256)

/-- 43_block_codec.md R186: DECODE of the stream an ENCODE wrote, with its counts, completes and writes the encoder's
input; OUTLEN = n, the stream is consumed exactly, STATE = LOWER, and no byte outside the n output bytes changes. -/
def Obligations.DecodeInvertsEncode : Prop :=
  ∀ (s t u : State) (l l' : Latch),
    s.latch = some l → s.params.legal = true → s.fault = none → exec .encode s = .next t → t.fault = none →
    u.latch = some l' → u.params.legal = true → u.cnt = t.cnt → l'.ops.a1 = t.outlen → decodeOperandsOk u l'.ops →
    l.ops.a1.toNat ≤ l'.ops.a3.toNat →
    (∀ j, j < t.outlen.toNat → readByte u.wmem (l'.ops.a0.toNat + j) = readByte t.wmem (t.wptr.toNat + j)) →
    ∃ v, exec .decode u = .next v ∧
      v = completed { u with
        cum := v.cum, symtab := v.symtab, lut := v.lut, total := l.ops.a1, state := 0x00800000, rptr := v.rlim
        rlim := l'.ops.a0 + l'.ops.a1, result := v.result, outlen := l.ops.a1, wmem := v.wmem, mode := .dec
        cumv := true, symv := true, lutv := true } ∧
      (∀ j, j < l.ops.a1.toNat →
        readByte v.wmem (l'.ops.a2.toNat + j) = readByte s.wmem (l.ops.a0.toNat + j)) ∧
      sameOutside u.wmem v.wmem l'.ops.a2.toNat (l'.ops.a2.toNat + l.ops.a1.toNat)

/-! ### The bit packer -/

/-- 44_bit_packer.md R200: EXPAND faults BAD_ADDR when a buffer is out of range and OVERLAP when its buffers overlap;
otherwise it writes symbol k of byte j as bit BitPos(k), sets OUTLEN = 8n, and changes no other byte and no other
state. -/
def Obligations.ExpandSpreadsTheBits : Prop :=
  ∀ (s : State) (l : Latch), s.latch = some l →
    let src := l.ops.a0.toNat
    let n := l.ops.a1.toNat
    let dst := l.ops.a2.toNat
    (s.params.wmemSize < src + n ∨ s.params.wmemSize < dst + 8 * n →
      exec .expand s = .next (faulted l .badAddr 0 s)) ∧
    (src + n ≤ s.params.wmemSize → dst + 8 * n ≤ s.params.wmemSize →
      (meets src n dst (8 * n) → exec .expand s = .next (faulted l .overlap 0 s)) ∧
      (¬ meets src n dst (8 * n) →
        ∃ t, exec .expand s = .next t ∧
          t = completed { s with wmem := t.wmem, outlen := BitVec.ofNat 32 (8 * n) } ∧
          (∀ j k, j < n → k < 8 →
            readByte t.wmem (dst + 8 * j + k) =
              if (readByte s.wmem (src + j)).getLsbD (posOf s.params.bitOrder k) then 1 else 0) ∧
          sameOutside s.wmem t.wmem dst (dst + 8 * n)))

/-- 44_bit_packer.md R201: PACK faults BAD_ADDR when a buffer is out of range, OVERLAP when its buffers overlap and
BAD_BIT(i), before any write, when symbol i is the first above 1; otherwise it sets bit BitPos(k) of byte j exactly when
symbol 8j + k is there and is 1, sets OUTLEN = ceil(nbits / 8), and changes no other byte and no other state. -/
def Obligations.PackGathersTheBits : Prop :=
  ∀ (s : State) (l : Latch), s.latch = some l →
    let src := l.ops.a0.toNat
    let nb := l.ops.a1.toNat
    let dst := l.ops.a2.toNat
    let m := (nb + 7) / 8
    (s.params.wmemSize < src + nb ∨ s.params.wmemSize < dst + m →
      exec .pack s = .next (faulted l .badAddr 0 s)) ∧
    (src + nb ≤ s.params.wmemSize → dst + m ≤ s.params.wmemSize →
      (meets src nb dst m → exec .pack s = .next (faulted l .overlap 0 s)) ∧
      (¬ meets src nb dst m →
        (∀ i, i < nb → 1 < (readByte s.wmem (src + i)).toNat →
          (∀ j, j < i → (readByte s.wmem (src + j)).toNat ≤ 1) →
          exec .pack s = .next (aborted l .badBit (BitVec.ofNat 32 i) s)) ∧
        ((∀ i, i < nb → (readByte s.wmem (src + i)).toNat ≤ 1) →
          ∃ t, exec .pack s = .next t ∧
            t = completed { s with wmem := t.wmem, outlen := BitVec.ofNat 32 m } ∧
            (∀ j k, j < m → k < 8 →
              ((readByte t.wmem (dst + j)).getLsbD (posOf s.params.bitOrder k) = true ↔
                8 * j + k < nb ∧ readByte s.wmem (src + (8 * j + k)) = 1)) ∧
            sameOutside s.wmem t.wmem dst (dst + m))))

/-- 44_bit_packer.md R202: PACK of EXPAND's output gives back the source bytes without a BAD_BIT, and EXPAND of PACK's
output gives back a sequence of 8n one-bit symbols. -/
def Obligations.PackAndExpandAreInverse : Prop :=
  ∀ (s t u : State) (l l' : Latch), s.latch = some l → s.fault = none → t.fault = none → u.latch = some l' →
    u.params = s.params → u.wmem = t.wmem → l'.ops.a0 = l.ops.a2 →
    (exec .expand s = .next t → l'.ops.a1.toNat = 8 * l.ops.a1.toNat →
      l'.ops.a2.toNat + l.ops.a1.toNat ≤ s.params.wmemSize →
      ¬ meets l.ops.a2.toNat (8 * l.ops.a1.toNat) l'.ops.a2.toNat l.ops.a1.toNat →
      ∃ v, exec .pack u = .next v ∧ v.fault = u.fault ∧
        ∀ j, j < l.ops.a1.toNat → readByte v.wmem (l'.ops.a2.toNat + j) = readByte s.wmem (l.ops.a0.toNat + j)) ∧
    (∀ n : Nat, exec .pack s = .next t → l.ops.a1.toNat = 8 * n → l'.ops.a1.toNat = n →
      l'.ops.a2.toNat + 8 * n ≤ s.params.wmemSize → ¬ meets l.ops.a2.toNat n l'.ops.a2.toNat (8 * n) →
      ∃ v, exec .expand u = .next v ∧ v.fault = u.fault ∧
        ∀ i, i < 8 * n → readByte v.wmem (l'.ops.a2.toNat + i) = readByte s.wmem (l.ops.a0.toNat + i))

/-! ### Faults -/

/-- 60_exceptions.md R265, R268: each sequencing requirement, its FINFO code, that a SEQ fault changes nothing but the
record, and that the other commands have no requirement. -/
def Obligations.SequencingFaultsArePrecise : Prop :=
  ∀ (s : State) (l : Latch), s.latch = some l →
    (s.cumv = false → exec .symtab s = .next (faulted l .seq 1 s) ∧ exec .lutgen s = .next (faulted l .seq 1 s)) ∧
    (s.symv = false → exec .encinit s = .next (faulted l .seq 2 s)) ∧
    (s.lutv = false → exec .decinit s = .next (faulted l .seq 3 s)) ∧
    (s.mode ≠ .enc → (∀ sym : Byte, exec (.encput sym) s = .next (faulted l .seq 4 s)) ∧
      exec .encflush s = .next (faulted l .seq 4 s)) ∧
    (s.mode ≠ .dec → exec .decget s = .next (faulted l .seq 5 s)) ∧
    (∀ i t, i ∈ [.nop, .count, .norm, .encode, .decode, .expand, .pack, .stcnt, .ldcnt] → s.fault = none →
      exec i s = .next t → t.fault ≠ some .seq)

/-- 60_exceptions.md R266: each range check, and that a BAD_ADDR fault (FINFO = 0) changes nothing but the record. -/
def Obligations.AddressFaultsArePrecise : Prop :=
  ∀ (s : State) (l : Latch), s.latch = some l →
    let n := s.params.wmemSize
    let a0 := l.ops.a0.toNat
    let a1 := l.ops.a1.toNat
    let a2 := l.ops.a2.toNat
    let a3 := l.ops.a3.toNat
    let bad := faulted l .badAddr 0 s
    (n < a0 + a1 → exec .count s = .next bad) ∧
    (256 < a1 ∨ n < a0 + 4 * a1 → exec .stcnt s = .next bad ∧ exec .ldcnt s = .next bad) ∧
    (s.symv = true → a0 < a1 ∨ n < a0 → exec .encinit s = .next bad) ∧
    (s.lutv = true → n < a0 + a1 → exec .decinit s = .next bad) ∧
    (n < a0 + a1 ∨ a2 < a3 ∨ n < a2 → exec .encode s = .next bad) ∧
    (n < a0 + a1 ∨ n < a2 + a3 → exec .decode s = .next bad) ∧
    (n < a0 + a1 ∨ n < a2 + 8 * a1 → exec .expand s = .next bad) ∧
    (n < a0 + a1 ∨ n < a2 + (a1 + 7) / 8 → exec .pack s = .next bad)

/-- 60_exceptions.md R267: with the buffers in range, an overlap of input and output faults OVERLAP (FINFO = 0) and
changes nothing but the record. -/
def Obligations.OverlapFaultsArePrecise : Prop :=
  ∀ (s : State) (l : Latch), s.latch = some l →
    let n := s.params.wmemSize
    let a0 := l.ops.a0.toNat
    let a1 := l.ops.a1.toNat
    let a2 := l.ops.a2.toNat
    let a3 := l.ops.a3.toNat
    let bad := faulted l .overlap 0 s
    a0 + a1 ≤ n →
    (a3 ≤ a2 → a2 ≤ n → meets a0 a1 a3 (a2 - a3) → exec .encode s = .next bad) ∧
    (a2 + a3 ≤ n → meets a0 a1 a2 a3 → exec .decode s = .next bad) ∧
    (a2 + 8 * a1 ≤ n → meets a0 a1 a2 (8 * a1) → exec .expand s = .next bad) ∧
    (a2 + (a1 + 7) / 8 ≤ n → meets a0 a1 a2 ((a1 + 7) / 8) → exec .pack s = .next bad)

/-- 60_exceptions.md R264, and the model's order of events (log 2, the model's choice: the engine has the turn with an
empty inbox, or as its oldest event): at the engine's turn a latched word with OP > 0x0F, RSVD != 0, or IMM8 != 0 with OP != 0x06 faults BAD_CMD: FINFO is the whole word, FOP its low byte, and nothing
is executed. -/
def Obligations.MalformedWordsFaultBadCmd : Prop :=
  ∀ (s : State) (l : Latch), s.latch = some l →
    (0x0F < (l.word.extractLsb' 0 8).toNat ∨ l.word.extractLsb' 16 16 ≠ 0 ∨
      (l.word.extractLsb' 8 8 ≠ 0 ∧ l.word.extractLsb' 0 8 ≠ 0x06)) →
    (s.inbox = [] → step s = .next (faulted l .badCmd l.word s)) ∧
    (∀ rest, s.inbox = .engine :: rest → step s = .next (faulted l .badCmd l.word { s with inbox := rest }))

/-- 60_exceptions.md R268, R269, R270 over all commands: a command that takes a fault records it and ends (BUSY = 0, FAULT,
FOP, OUTLEN = 0, DONE as it was); a precise one changes nothing else, an abortive one leaves MODE = IDLE. -/
def Obligations.EveryFaultIsRecorded : Prop :=
  ∀ (i : Instr) (s t : State) (l : Latch) (c : FaultCode), s.latch = some l → s.fault = none →
    exec i s = .next t → t.fault = some c →
    t.latch = none ∧ t.fop = l.word.extractLsb' 0 8 ∧ t.outlen = 0 ∧ t.done = s.done ∧
      (faultPrecise c = true → t = faulted l c t.finfo s) ∧ (faultPrecise c = false → t.mode = .idle)

/-- 45_control.md R212 and 60_exceptions.md R274 over all commands: a command empties the latch (BUSY = 0); one that ends
without a fault sets DONE and keeps the fault record; IRQ is IE and (DONE or FAULT) in every state, and so after a command,
with or without a fault, 1 exactly when IE = 1. -/
def Obligations.EveryCommandEndsTheHandshake : Prop :=
  (∀ s : State, irq s = (s.ie && (s.done || s.fault.isSome))) ∧
    ∀ (i : Instr) (s t : State), s.fault = none → exec i s = .next t →
      t.latch = none ∧ irq t = s.ie ∧
        (t.fault = none → t.done = true ∧ t.finfo = s.finfo ∧ t.fop = s.fop)

/-! ### Who writes what -/

/-- 10_state.md R21 and 45_control.md R211, R213, R214 over all commands: no command writes ARG0-ARG3, CMD, CTRL, CMDOVR,
ACCERR or the parameters, and none touches what the outside world does next. -/
def Obligations.CommandsNeverWriteHostState : Prop :=
  ∀ (i : Instr) (s t : State), exec i s = .next t →
    t.args = s.args ∧ t.cmd = s.cmd ∧ t.ie = s.ie ∧ t.cmdovr = s.cmdovr ∧ t.accerr = s.accerr ∧
      t.params = s.params ∧ t.inbox = s.inbox ∧ t.rdata = s.rdata

/-- 10_state.md R22, R32, R41, R42, R43, R44 over all commands: which commands may write STATE, CNT, CUM, SYMTAB and LUT
(composites by their steps), and that only ENCINIT enters MODE = ENC, only DECINIT and DECODE enter MODE = DEC. -/
def Obligations.TablesAndStateHaveFewWriters : Prop :=
  ∀ (i : Instr) (s t : State), exec i s = .next t →
    ((∀ sym, i ≠ .encput sym) → i ∉ [.encinit, .decinit, .decget, .encode, .decode] → t.state = s.state) ∧
    (i ∉ [.count, .ldcnt, .encode] → t.cnt = s.cnt) ∧
    (i ∉ [.norm, .encode, .decode] → t.cum = s.cum) ∧
    (i ∉ [.symtab, .encode, .decode] → t.symtab = s.symtab) ∧
    (i ∉ [.lutgen, .decode] → t.lut = s.lut) ∧
    (t.mode = .enc → s.mode = .enc ∨ i = .encinit) ∧
    (t.mode = .dec → s.mode = .dec ∨ i = .decinit ∨ i = .decode)

/-! ### The host -/

/-- 45_control.md R211 (with 60_exceptions.md R274): a CMD write while BUSY = 1 or FAULT = 1 is dropped with CMDOVR, any
other is accepted, which clears DONE and with it the IRQ; nothing else changes. -/
def Obligations.CmdWriteIsAcceptedOrDropped : Prop :=
  ∀ (s : State) (w : Word),
    (s.busy = true ∨ s.fault ≠ none →
      stepEvent (.access (.write .w32 0x020 w)) s = .next { s with cmdovr := true }) ∧
    (s.busy = false → s.fault = none →
      ∃ t, stepEvent (.access (.write .w32 0x020 w)) s = .next t ∧
        t = { s with cmd := w, latch := some ⟨w, s.args⟩, done := false } ∧ irq t = false)

/-- 45_control.md R213 (with 60_exceptions.md R272, R274): a STATUS write clears exactly the W1C bits written with a 1,
FAULT together with FCODE; IRQ is then IE and (DONE or FAULT) as they are left; nothing else changes. -/
def Obligations.StatusWriteClearsFlags : Prop :=
  ∀ (s : State) (v : Word),
    ∃ t, stepEvent (.access (.write .w32 0x024 v)) s = .next t ∧
      t = { s with done := t.done, fault := t.fault, cmdovr := t.cmdovr, accerr := t.accerr } ∧
      t.done = (if v.getLsbD 1 then false else s.done) ∧
      t.fault = (if v.getLsbD 2 then none else s.fault) ∧
      t.cmdovr = (if v.getLsbD 3 then false else s.cmdovr) ∧
      t.accerr = (if v.getLsbD 4 then false else s.accerr) ∧
      irq t = (s.ie && ((s.done && !v.getLsbD 1) || (s.fault.isSome && !v.getLsbD 2)))

/-- 10_state.md R26 and the code numbers of 60_exceptions.md R261: a STATUS read returns each field at its place and 0 in
every reserved bit, and changes nothing. -/
def Obligations.StatusReadShowsItsFields : Prop :=
  ∀ (s : State), ∃ v : Word,
    stepEvent (.access (.read .w32 0x024)) s = .next { s with rdata := some v } ∧
      v.getLsbD 0 = s.busy ∧ v.getLsbD 1 = s.done ∧ v.getLsbD 2 = s.fault.isSome ∧ v.getLsbD 3 = s.cmdovr ∧
      v.getLsbD 4 = s.accerr ∧ v.getLsbD 8 = decide (s.mode = .enc) ∧ v.getLsbD 9 = decide (s.mode = .dec) ∧
      v.getLsbD 12 = s.cumv ∧ v.getLsbD 13 = s.symv ∧ v.getLsbD 14 = s.lutv ∧
      (s.fault, v.extractLsb' 16 8) ∈ fcodes ∧
      v.extractLsb' 5 3 = 0 ∧ v.extractLsb' 10 2 = 0 ∧ v.getLsbD 15 = false ∧ v.extractLsb' 24 8 = 0

/-- 45_control.md R214, R215, R216: what a host write to CTRL (the interrupt output following at once), ARG0-ARG3 and
CNT[i] does; while BUSY = 1 the last two are dropped and set ACCERR. -/
def Obligations.RegisterWritesStoreOrDrop : Prop :=
  ∀ (s : State) (v : Word),
    stepEvent (.access (.write .w32 0x028 v)) s = .next { s with ie := v.getLsbD 0 } ∧
    irq { s with ie := v.getLsbD 0 } = (v.getLsbD 0 && (s.done || s.fault.isSome)) ∧
    (s.busy = false →
      stepEvent (.access (.write .w32 0x030 v)) s = .next { s with args := { s.args with a0 := v } } ∧
      stepEvent (.access (.write .w32 0x034 v)) s = .next { s with args := { s.args with a1 := v } } ∧
      stepEvent (.access (.write .w32 0x038 v)) s = .next { s with args := { s.args with a2 := v } } ∧
      stepEvent (.access (.write .w32 0x03C v)) s = .next { s with args := { s.args with a3 := v } } ∧
      ∀ i, i < 256 →
        ∃ t, stepEvent (.access (.write .w32 (0x400 + 4 * i) v)) s = .next t ∧
          t = { s with cnt := t.cnt, mode := .idle, cumv := false, symv := false, lutv := false } ∧
          ∀ j, j < 256 → entry t.cnt j = if j = i then v else entry s.cnt j) ∧
    (s.busy = true →
      (∀ off, off ∈ [0x030, 0x034, 0x038, 0x03C] →
        stepEvent (.access (.write .w32 off v)) s = .next { s with accerr := true }) ∧
      ∀ i, i < 256 → stepEvent (.access (.write .w32 (0x400 + 4 * i) v)) s = .next { s with accerr := true })

/-- 45_control.md R217 (with 20_memory.md R63, R65): a host write to the WMEM window while BUSY = 0 stores its bytes
little-endian and changes no other byte and no other state; while BUSY = 1 it is dropped and sets ACCERR. -/
def Obligations.WmemWindowWriteStoresBytes : Prop :=
  ∀ (s : State) (w : Width) (a : Nat) (v : Word), a + widthBytes w ≤ s.params.wmemSize → a % widthBytes w = 0 →
    (s.busy = false →
      ∃ t, stepEvent (.access (.write w (0x10000 + a) v)) s = .next t ∧ t = { s with wmem := t.wmem } ∧
        (∀ j, j < widthBytes w → readByte t.wmem (a + j) = v.extractLsb' (8 * j) 8) ∧
        sameOutside s.wmem t.wmem a (a + widthBytes w)) ∧
    (s.busy = true → stepEvent (.access (.write w (0x10000 + a) v)) s = .next { s with accerr := true })

/-- 45_control.md R218, R219 (with 10_state.md R24 and 20_memory.md R61 to R63, R65): what a read of each register and of
each window returns, and that it changes nothing: ID, VERSION, PARAM_*, CMD and CTRL always, the others while BUSY = 0.
(STATUS: `StatusReadShowsItsFields`.) -/
def Obligations.HostReadsReturnValues : Prop :=
  ∀ (s : State),
    (∀ r ∈ ([(0x000, 0x52414E53), (0x004, 1), (0x008, 14), (0x00C, 0x00800000),
        (0x010, BitVec.ofNat 32 s.params.wmemSize), (0x014, 256), (0x020, s.cmd),
        (0x028, if s.ie then 1 else 0)] : List (Nat × Word)),
      stepEvent (.access (.read .w32 r.1)) s = .next { s with rdata := some r.2 }) ∧
    (s.busy = false →
      (∀ r ∈ ([(0x02C, s.finfo), (0x030, s.args.a0), (0x034, s.args.a1), (0x038, s.args.a2), (0x03C, s.args.a3),
          (0x040, s.state), (0x044, s.wptr), (0x048, s.wend), (0x04C, s.wlim), (0x050, s.rptr), (0x054, s.rlim),
          (0x058, s.result.setWidth 32), (0x05C, s.total), (0x060, s.outlen),
          (0x064, s.fop.setWidth 32)] : List (Nat × Word)),
        stepEvent (.access (.read .w32 r.1)) s = .next { s with rdata := some r.2 }) ∧
      (∀ i, i < 256 →
        stepEvent (.access (.read .w32 (0x400 + 4 * i))) s = .next { s with rdata := some (entry s.cnt i) }) ∧
      (∀ i, i ≤ 256 →
        stepEvent (.access (.read .w32 (0x800 + 4 * i))) s = .next { s with rdata := some (entry s.cum i) }) ∧
      (∀ i, i < 256 →
        stepEvent (.access (.read .w32 (0x1000 + 16 * i))) s = .next { s with rdata := some (entry s.symtab i).thr } ∧
        stepEvent (.access (.read .w32 (0x1004 + 16 * i))) s = .next { s with rdata := some (entry s.symtab i).rcp } ∧
        stepEvent (.access (.read .w32 (0x1008 + 16 * i))) s = .next { s with rdata := some (entry s.symtab i).bias } ∧
        stepEvent (.access (.read .w32 (0x100C + 16 * i))) s =
          .next { s with rdata := some ((0 : BitVec 8) ++ (entry s.symtab i).shift ++ (entry s.symtab i).cmpl) }) ∧
      (∀ (w : Width) (k : Nat), k + widthBytes w ≤ 16384 → k % widthBytes w = 0 →
        ∃ v : Word, stepEvent (.access (.read w (0x4000 + k))) s = .next { s with rdata := some v } ∧
          (∀ j, j < widthBytes w → v.extractLsb' (8 * j) 8 = entry s.lut (k + j))) ∧
      (∀ (w : Width) (a : Nat), a + widthBytes w ≤ s.params.wmemSize → a % widthBytes w = 0 →
        ∃ v : Word, stepEvent (.access (.read w (0x10000 + a))) s = .next { s with rdata := some v } ∧
          (∀ j, j < widthBytes w → v.extractLsb' (8 * j) 8 = readByte s.wmem (a + j))))

/-- 20_memory.md R64: a write to a reserved offset or a read-only register changes nothing, one to a read-only window
changes nothing while BUSY = 0, and a reserved offset reads 0. -/
def Obligations.ReservedAndReadOnlyAreInert : Prop :=
  ∀ (s : State) (w : Width) (off : Nat) (v : Word), accessAllowed s.params.wmemSize w off →
    ((off ∈ [0x000, 0x004, 0x008, 0x00C, 0x010, 0x014, 0x02C, 0x040, 0x044, 0x048, 0x04C, 0x050, 0x054, 0x058, 0x05C,
        0x060, 0x064] →
      stepEvent (.access (.write w off v)) s = .next s) ∧
    (s.busy = false →
      (0x800 ≤ off ∧ off < 0xC04) ∨ (0x1000 ≤ off ∧ off < 0x2000) ∨ (0x4000 ≤ off ∧ off < 0x8000) →
      stepEvent (.access (.write w off v)) s = .next s) ∧
    ((0x018 ≤ off ∧ off < 0x020) ∨ (0x068 ≤ off ∧ off < 0x400) ∨ (0xC04 ≤ off ∧ off < 0x1000) ∨
        (0x2000 ≤ off ∧ off < 0x4000) ∨ (0x8000 ≤ off ∧ off < 0x10000) →
      stepEvent (.access (.write w off v)) s = .next s ∧
        stepEvent (.access (.read w off)) s = .next { s with rdata := some 0 }))

/-- 20_memory.md R66, R67, R68: an access is performed exactly when it keeps the width and alignment rules and lies
inside the map; any other has no step. (At the reserved offsets from 0xC04 the model's choice, log 13.) -/
def Obligations.AccessesAreRefusedByRule : Prop :=
  ∀ (s : State) (w : Width) (off : Nat) (v : Word),
    (accessAllowed s.params.wmemSize w off →
      ∃ t u, stepEvent (.access (.read w off)) s = .next t ∧ stepEvent (.access (.write w off v)) s = .next u) ∧
    (¬ accessAllowed s.params.wmemSize w off →
      stepEvent (.access (.read w off)) s = .refused (.hostAccess (.read w off)) ∧
      stepEvent (.access (.write w off v)) s = .refused (.hostAccess (.write w off v)))

/-- 20_memory.md R72: while BUSY = 1 a window read changes nothing but ACCERR and the host's drawn value, a write to a
window or to ARG0-ARG3 is dropped and sets ACCERR, and a coder-register read sets nothing. (The counter `draws` is the
model's own.) -/
def Obligations.BusyWindowAccessesAreFlagged : Prop :=
  ∀ (s : State) (w : Width) (off : Nat) (v : Word), s.busy = true → accessAllowed s.params.wmemSize w off →
    ((0x400 ≤ off ∧ off < 0xC04) ∨ (0x1000 ≤ off ∧ off < 0x2000) ∨ (0x4000 ≤ off ∧ off < 0x8000) ∨ 0x10000 ≤ off →
      stepEvent (.access (.write w off v)) s = .next { s with accerr := true } ∧
      ∃ d, stepEvent (.access (.read w off)) s =
        .next { s with accerr := true, rdata := some d, draws := s.draws + 1 }) ∧
    (off ∈ [0x030, 0x034, 0x038, 0x03C] →
      stepEvent (.access (.write w off v)) s = .next { s with accerr := true }) ∧
    (off ∈ [0x02C, 0x040, 0x044, 0x048, 0x04C, 0x050, 0x054, 0x058, 0x05C, 0x060, 0x064] →
      ∃ d, stepEvent (.access (.read w off)) s = .next { s with rdata := some d, draws := s.draws + 1 })

/-- 20_memory.md R72, last sentence: no host access made while a command is pending changes anything that command reads or
writes, the latch included, but for DONE and FAULT, which a STATUS write clears (45_control.md R213), and the model's own
counter `draws` (log 7); where the handshake is in order (R211: a pending command excludes both) DONE and FAULT too stay
as they were. -/
def Obligations.BusyAccessNeverDisturbsTheCommand : Prop :=
  ∀ (s t : State) (a : Access), s.busy = true → stepEvent (.access a) s = .next t →
    sameForEngine s t ∧ (s.handshakeOk → t.done = s.done ∧ t.fault = s.fault)

/-! ### Reset -/

/-- 10_state.md R49, 70_reset_and_hazards.md R290, R291: the state after reset has every value R49 states, whatever the
parameters and the draw of the tables and of WMEM; and a reset pulse leads there from every state, a pending
command abandoned and the parameters as they were. -/
def Obligations.ResetGivesTheStatedValues : Prop :=
  (∀ (p : Params) (n : Nat), resetValues (State.afterReset p n)) ∧
    ∀ (s : State), ∃ t, stepEvent .reset s = .next t ∧ resetValues t ∧ t.params = s.params

/-! ### Encoding, and the step -/

/-- 30_encoding.md R94, R97: a word decodes to a command exactly when it is that command's encoding, and exactly the
well-formed words decode. -/
def Obligations.DecodingIsABijection : Prop :=
  (∀ (w : Word) (i : Instr), decodeWord w = .ok i ↔ w = encodeWord i) ∧
    (∀ w : Word,
      (∃ i, decodeWord w = .ok i) ↔
        (w.extractLsb' 0 8).toNat ≤ 0x0F ∧ w.extractLsb' 16 16 = 0 ∧
          (w.extractLsb' 8 8 = 0 ∨ w.extractLsb' 0 8 = 0x06))

/-- 30_encoding.md R95: words written out from the opcode map decode to the commands they stand for (one of each
family), and three reserved words to none. -/
def Obligations.SampleWordsDecode : Prop :=
  decodeWord 0x00000000 = .ok .nop ∧ decodeWord 0x00000002 = .ok .norm ∧ decodeWord 0x00000003 = .ok .symtab ∧
    decodeWord 0x00004106 = .ok (.encput 0x41) ∧ decodeWord 0x0000000B = .ok .decode ∧
    decodeWord 0x0000000D = .ok .pack ∧ decodeWord 0x00000010 = .error .opcode ∧
    decodeWord 0x00000100 = .error .imm ∧ decodeWord 0x00010000 = .error .rsvd

/-- 45_control.md R212, and the model's order of events (log 2): with the engine's turn next and a command latched whose
word decodes to i, a step is `exec i`, with the event taken from the inbox. -/
def Obligations.StepRunsTheLatchedCommand : Prop :=
  ∀ (s : State) (l : Latch) (i : Instr), s.latch = some l → decodeWord l.word = .ok i →
    (s.inbox = [] → step s = exec i s) ∧
    (∀ rest, s.inbox = .engine :: rest → step s = exec i { s with inbox := rest })

/-- The canonical form of WMEM is kept by every step (10_state.md R45, 20_memory.md R60; the form is the model's own). -/
def Obligations.StepKeepsMemoryCanonical : Prop :=
  ∀ (s t : State), s.memoryOk → step s = .next t → t.memoryOk

/-- 10_state.md R26, R33: the validity bits keep meaning what they say, over every step: CUM is the normalization of the
current CNT, SYMTAB the descriptors and LUT the lookup table of the current CUM. -/
def Obligations.StepKeepsTablesCoherent : Prop :=
  ∀ (s t : State), s.tablesCoherent → step s = .next t → t.tablesCoherent

/-- 10_state.md R47, R48 and the rest of the invariant: from a state that meets it, a step answers a next state that meets
it, unless it is a host access the block refuses; the engine never stops. -/
def Obligations.StepKeepsTheInvariant : Prop :=
  ∀ (s : State), s.Inv → (∃ t, step s = .next t ∧ t.Inv) ∨ (∃ a, step s = .refused (.hostAccess a))

/-- The invariant holds right after reset. -/
def Obligations.ResetMeetsTheInvariant : Prop := State.reset.Inv

/-- 70_reset_and_hazards.md R301, R302: a pending command completes or faults: whatever permitted accesses the host still
makes, at most as many steps as the inbox has events, and one more, lead to BUSY = 0 with DONE or FAULT. -/
def Obligations.PendingCommandCompletes : Prop :=
  ∀ (s : State), s.Inv → s.busy = true → (∀ e ∈ s.inbox, eventAllowed s.params.wmemSize e) →
    ∃ n t, n ≤ s.inbox.length + 1 ∧ Sys2Proof.core.run n s = .next t ∧ t.busy = false ∧
      (t.done = true ∨ t.fault ≠ none)

/-- 48_container.md R230: the packaged stream's layout: its length and where each field stands. -/
def Obligations.PackagedStreamLayout : Prop :=
  ∀ (f20 f21 : Nat) (s2 s1 s0 : List Byte), f20 < 256 → f21 < 256 → s2.length < 256 → s1.length < 2 ^ 32 →
    s0.length < 2 ^ 32 →
    let b := assemble f20 f21 s2 s1 s0
    b.length = 11 + s2.length + s1.length + s0.length ∧
      b.take 3 = [BitVec.ofNat 8 f20, BitVec.ofNat 8 f21, BitVec.ofNat 8 s2.length] ∧
      (b.drop 3).take s2.length = s2 ∧
      leValue ((b.drop (3 + s2.length)).take 4) = s1.length ∧
      (b.drop (7 + s2.length)).take s1.length = s1 ∧
      leValue ((b.drop (7 + s2.length + s1.length)).take 4) = s0.length ∧
      b.drop (11 + s2.length + s1.length) = s0

end
end

