-- ==== Sys2Proof/Laws/Memory.lean ====
section
/-! SUPPORT. The laws of WMEM: read after write, what a store leaves alone, and that every memory operation keeps the
canonical form and the bounds. -/

namespace Sys2Proof.Machine

/-! ### Read after write -/

@[simp] theorem unlistedByte_fixed (b : Byte) (a : Nat) : unlistedByte (.fixed b) a = b := rfl

@[simp] theorem writeByte_unwritten (m : Memory) (a : Nat) (v : Byte) :
    (writeByte m a v).unwritten = m.unwritten := by
  unfold writeByte; split <;> rfl

@[simp] theorem storeBytes_unwritten (m : Memory) (a : Nat) (bs : List Byte) :
    (storeBytes m a bs).unwritten = m.unwritten := by
  induction bs generalizing m a with
  | nil => rfl
  | cons x rest ih => rw [storeBytes, ih, writeByte_unwritten]

theorem listedByte_eraseCell (cells : List Host.Cell) (a b : Nat) :
    listedByte (eraseCell cells a) b = if b = a then none else listedByte cells b := by
  induction cells with
  | nil => simp [eraseCell, listedByte]
  | cons c rest ih =>
    obtain ⟨k, w⟩ := c
    unfold eraseCell at ih ⊢
    by_cases hk : k = a
    · subst hk
      by_cases hb : b = k
      · simpa [hb] using ih
      · simpa [hb, listedByte, Ne.symm hb] using ih
    · by_cases hkb : k = b
      · subst hkb; simp [hk, listedByte]
      · simpa [hk, listedByte, hkb] using ih

theorem listedByte_insertCell (cells : List Host.Cell) (a b : Nat) (v : Byte) :
    listedByte (insertCell cells a v) b = if b = a then some v else listedByte cells b := by
  induction cells with
  | nil =>
    by_cases hb : b = a
    · simp [insertCell, listedByte, hb]
    · simp [insertCell, listedByte, hb, Ne.symm hb]
  | cons c rest ih =>
    obtain ⟨k, w⟩ := c
    unfold insertCell
    by_cases h1 : a < k
    · by_cases hb : b = a
      · subst hb; simp [h1, listedByte]
      · simp [h1, listedByte, hb, Ne.symm hb]
    · by_cases h2 : a = k
      · subst h2
        by_cases hb : b = a
        · subst hb; simp [listedByte]
        · simp [listedByte, hb, Ne.symm hb]
      · by_cases hkb : k = b
        · subst hkb; simp [h1, h2, listedByte, Ne.symm h2]
        · simp [h1, h2, listedByte, hkb, ih]

/-- A read after a write to the same address gives the value written, any other reads as before. -/
theorem readByte_writeByte (m : Memory) (a b : Nat) (v : Byte) :
    readByte (writeByte m a v) b = if b = a then v else readByte m b := by
  unfold writeByte
  split
  · rename_i hu
    by_cases hb : b = a <;> simp [readByte, listedByte_eraseCell, hb, hu]
  · by_cases hb : b = a <;> simp [readByte, listedByte_insertCell, hb]

@[simp] theorem readByte_writeByte_same (m : Memory) (a : Nat) (v : Byte) : readByte (writeByte m a v) a = v := by
  simp [readByte_writeByte]

theorem readByte_writeByte_ne (m : Memory) (a b : Nat) (v : Byte) (h : b ≠ a) :
    readByte (writeByte m a v) b = readByte m b := by
  simp [readByte_writeByte, h]

/-- Storing bytes: byte i of the list stands at address a + i. -/
theorem readByte_storeBytes (m : Memory) (a b : Nat) (bs : List Byte) :
    readByte (storeBytes m a bs) b =
      if a ≤ b ∧ b < a + bs.length then bs.getD (b - a) 0 else readByte m b := by
  induction bs generalizing m a with
  | nil =>
    rw [if_neg (by simp)]
    rfl
  | cons x rest ih =>
    rw [storeBytes, ih, readByte_writeByte]
    by_cases h1 : b = a
    · subst h1; simp
    · by_cases h2 : a + 1 ≤ b ∧ b < a + 1 + rest.length
      · have h3 : a ≤ b ∧ b < a + (x :: rest).length := by simp only [List.length_cons]; omega
        have h4 : b - a = (b - (a + 1)) + 1 := by omega
        rw [if_pos h2, if_pos h3, h4, List.getD_cons_succ]
      · have h3 : ¬ (a ≤ b ∧ b < a + (x :: rest).length) := by simp only [List.length_cons]; omega
        rw [if_neg h2, if_neg h3, if_neg h1]

/-- A store leaves every byte outside its range alone. -/
theorem readByte_storeBytes_outside (m : Memory) (a b : Nat) (bs : List Byte) (h : b < a ∨ a + bs.length ≤ b) :
    readByte (storeBytes m a bs) b = readByte m b := by
  rw [readByte_storeBytes, if_neg (by omega)]

@[simp] theorem loadBytes_length (m : Memory) (a n : Nat) : (loadBytes m a n).length = n := by simp [loadBytes]

theorem loadBytes_getElem? (m : Memory) (a n i : Nat) (h : i < n) :
    (loadBytes m a n)[i]? = some (readByte m (a + i)) := by
  simp [loadBytes, h]

@[simp] theorem leBytes_length (v : Word) (n : Nat) : (leBytes v n).length = n := by simp [leBytes]

theorem leBytes_getD (v : Word) (n k : Nat) (d : Byte) (h : k < n) :
    (leBytes v n).getD k d = v.extractLsb' (8 * k) 8 := by
  have : (v >>> (8 * k)).setWidth 8 = v.extractLsb' (8 * k) 8 := by
    ext i hi
    simp [BitVec.getElem_extractLsb', BitVec.getElem_setWidth]
  simp [leBytes, h, this]

/-! ### The canonical form -/

theorem canonicalFrom_mono (u : Unwritten) (cells : List Host.Cell) (lo lo' : Nat)
    (h : canonicalFrom u lo cells = true) (hl : lo' ≤ lo) : canonicalFrom u lo' cells = true := by
  cases cells with
  | nil => rfl
  | cons c rest =>
    obtain ⟨k, v⟩ := c
    simp only [canonicalFrom, Bool.and_eq_true, decide_eq_true_eq] at h ⊢
    exact ⟨⟨by omega, h.1.2⟩, h.2⟩

theorem canonicalFrom_eraseCell (u : Unwritten) (cells : List Host.Cell) (lo a : Nat)
    (h : canonicalFrom u lo cells = true) : canonicalFrom u lo (eraseCell cells a) = true := by
  induction cells generalizing lo with
  | nil => rfl
  | cons c rest ih =>
    obtain ⟨k, w⟩ := c
    simp only [canonicalFrom, Bool.and_eq_true, decide_eq_true_eq] at h
    have hr := ih (k + 1) h.2
    unfold eraseCell at hr ⊢
    by_cases hk : k = a
    · simpa [hk] using canonicalFrom_mono u _ _ lo hr (by omega)
    · simp only [ne_eq, hk, not_false_eq_true, decide_true, List.filter_cons_of_pos]
      simp only [canonicalFrom, Bool.and_eq_true, decide_eq_true_eq]
      exact ⟨h.1, hr⟩

theorem canonicalFrom_insertCell (u : Unwritten) (cells : List Host.Cell) (lo a : Nat) (v : Byte)
    (h : canonicalFrom u lo cells = true) (hv : u ≠ .fixed v) (ha : lo ≤ a) :
    canonicalFrom u lo (insertCell cells a v) = true := by
  induction cells generalizing lo with
  | nil => simp [insertCell, canonicalFrom, hv, ha]
  | cons c rest ih =>
    obtain ⟨k, w⟩ := c
    simp only [canonicalFrom, Bool.and_eq_true, decide_eq_true_eq] at h
    obtain ⟨⟨hk, hw⟩, hr⟩ := h
    unfold insertCell
    by_cases h1 : a < k
    · have : a + 1 ≤ k := by omega
      simp [h1, canonicalFrom, ha, hv, hw, hr, this]
    · by_cases h2 : a = k
      · subst h2; simp [canonicalFrom, ha, hv, hr]
      · have := ih (k + 1) hr (by omega)
        simp [h1, h2, canonicalFrom, hk, hw, this]

/-- A write keeps the canonical form. -/
theorem writeByte_wf (m : Memory) (a : Nat) (v : Byte) (h : Memory.wf m = true) :
    Memory.wf (writeByte m a v) = true := by
  unfold writeByte
  split
  · exact canonicalFrom_eraseCell m.unwritten m.cells 0 a h
  · exact canonicalFrom_insertCell m.unwritten m.cells 0 a v h (by assumption) (Nat.zero_le a)

/-- Inserting a cell below `size` leaves every listed address below `size`. -/
theorem insertCell_below {size a : Nat} {v : Byte} {cells : List Host.Cell} (h : ∀ c ∈ cells, c.1 < size)
    (ha : a < size) : ∀ c ∈ insertCell cells a v, c.1 < size := by
  induction cells with
  | nil => simp [insertCell, ha]
  | cons c rest ih =>
    obtain ⟨k, w⟩ := c
    have hr := ih fun x hx => h x (List.mem_cons_of_mem _ hx)
    have hk := h (k, w) (List.mem_cons_self ..)
    have ht : ∀ x ∈ rest, x.1 < size := fun x hx => h x (List.mem_cons_of_mem _ hx)
    unfold insertCell
    split
    · simpa [ha] using h
    · split
      · simpa [ha] using ht
      · simpa [hk] using hr

/-- A write inside WMEM keeps every listed address inside WMEM. -/
theorem writeByte_within (size : Nat) (m : Memory) (a : Nat) (v : Byte) (h : memoryWithin size m = true)
    (ha : a < size) : memoryWithin size (writeByte m a v) = true := by
  unfold writeByte memoryWithin at *
  simp only [List.all_eq_true, decide_eq_true_eq] at h ⊢
  split
  · exact fun c hc => h c (List.mem_of_mem_filter hc)
  · exact insertCell_below h ha

/-- A store keeps the canonical form. -/
theorem storeBytes_wf (m : Memory) (a : Nat) (bs : List Byte) (h : Memory.wf m = true) :
    Memory.wf (storeBytes m a bs) = true := by
  induction bs generalizing m a with
  | nil => exact h
  | cons x rest ih => exact ih _ _ (writeByte_wf m a x h)

/-- A store inside WMEM keeps every listed address inside WMEM. -/
theorem storeBytes_within (size : Nat) (m : Memory) (a : Nat) (bs : List Byte) (h : memoryWithin size m = true)
    (ha : a + bs.length ≤ size) : memoryWithin size (storeBytes m a bs) = true := by
  induction bs generalizing m a with
  | nil => exact h
  | cons x rest ih =>
    simp only [List.length_cons] at ha
    exact ih _ _ (writeByte_within size m a x h (by omega)) (by omega)

/-- Storing a word keeps the canonical form. -/
theorem memWrite32_wf (m : Memory) (a : Nat) (v : Word) (h : Memory.wf m = true) :
    Memory.wf (memWrite32 m a v) = true := storeBytes_wf m a _ h

/-- Storing a word inside WMEM keeps every listed address inside WMEM. -/
theorem memWrite32_within (size : Nat) (m : Memory) (a : Nat) (v : Word) (h : memoryWithin size m = true)
    (ha : a + 4 ≤ size) : memoryWithin size (memWrite32 m a v) = true :=
  storeBytes_within size m a _ h (by simpa using ha)

/-- A draw of some bytes keeps the canonical form. -/
theorem drawBytes_wf (n lo hi : Nat) (m : Memory) (h : Memory.wf m = true) : Memory.wf (drawBytes n lo hi m) = true :=
  storeBytes_wf m lo _ h

/-- A draw of bytes inside WMEM keeps every listed address inside WMEM. -/
theorem drawBytes_within (size n lo hi : Nat) (m : Memory) (h : memoryWithin size m = true) (hl : lo ≤ size)
    (hh : hi ≤ size) : memoryWithin size (drawBytes n lo hi m) = true :=
  storeBytes_within size m lo _ h (by simp; omega)

/-- A draw of WMEM[lo .. hi) leaves every other byte alone. -/
theorem readByte_drawBytes_outside (n lo hi b : Nat) (m : Memory) (h : b < lo ∨ hi ≤ b) (hl : lo ≤ hi) :
    readByte (drawBytes n lo hi m) b = readByte m b :=
  readByte_storeBytes_outside m lo b _ (by simp; omega)

/-- Memory right after reset is canonical. -/
theorem reset_memory_wf : Memory.wf State.reset.wmem = true := rfl

end Sys2Proof.Machine
end

