-- ==== Sys2Proof/Laws/State.lean ====
section
/-! SUPPORT. For each named update of the state, one lemma per field, true by rfl: no proof unfolds a record update. -/

namespace Sys2Proof.Machine

/-! ### Completion (45_control.md R212). -/

@[simp] theorem complete_params (s : State) : (complete s).params = s.params := rfl
@[simp] theorem complete_args (s : State) : (complete s).args = s.args := rfl
@[simp] theorem complete_state (s : State) : (complete s).state = s.state := rfl
@[simp] theorem complete_cmd (s : State) : (complete s).cmd = s.cmd := rfl
@[simp] theorem complete_done (s : State) : (complete s).done = true := rfl
@[simp] theorem complete_fault (s : State) : (complete s).fault = s.fault := rfl
@[simp] theorem complete_cmdovr (s : State) : (complete s).cmdovr = s.cmdovr := rfl
@[simp] theorem complete_accerr (s : State) : (complete s).accerr = s.accerr := rfl
@[simp] theorem complete_mode (s : State) : (complete s).mode = s.mode := rfl
@[simp] theorem complete_cumv (s : State) : (complete s).cumv = s.cumv := rfl
@[simp] theorem complete_symv (s : State) : (complete s).symv = s.symv := rfl
@[simp] theorem complete_lutv (s : State) : (complete s).lutv = s.lutv := rfl
@[simp] theorem complete_ie (s : State) : (complete s).ie = s.ie := rfl
@[simp] theorem complete_finfo (s : State) : (complete s).finfo = s.finfo := rfl
@[simp] theorem complete_fop (s : State) : (complete s).fop = s.fop := rfl
@[simp] theorem complete_wptr (s : State) : (complete s).wptr = s.wptr := rfl
@[simp] theorem complete_wend (s : State) : (complete s).wend = s.wend := rfl
@[simp] theorem complete_wlim (s : State) : (complete s).wlim = s.wlim := rfl
@[simp] theorem complete_rptr (s : State) : (complete s).rptr = s.rptr := rfl
@[simp] theorem complete_rlim (s : State) : (complete s).rlim = s.rlim := rfl
@[simp] theorem complete_result (s : State) : (complete s).result = s.result := rfl
@[simp] theorem complete_total (s : State) : (complete s).total = s.total := rfl
@[simp] theorem complete_outlen (s : State) : (complete s).outlen = s.outlen := rfl
@[simp] theorem complete_cnt (s : State) : (complete s).cnt = s.cnt := rfl
@[simp] theorem complete_cum (s : State) : (complete s).cum = s.cum := rfl
@[simp] theorem complete_symtab (s : State) : (complete s).symtab = s.symtab := rfl
@[simp] theorem complete_lut (s : State) : (complete s).lut = s.lut := rfl
@[simp] theorem complete_wmem (s : State) : (complete s).wmem = s.wmem := rfl
@[simp] theorem complete_latch (s : State) : (complete s).latch = none := rfl
@[simp] theorem complete_inbox (s : State) : (complete s).inbox = s.inbox := rfl
@[simp] theorem complete_rdata (s : State) : (complete s).rdata = s.rdata := rfl
@[simp] theorem complete_draws (s : State) : (complete s).draws = s.draws := rfl

/-! ### Fault recording (60_exceptions.md R270). -/

@[simp] theorem recordFault_params (c : FaultCode) (info : Word) (s : State) :
    (recordFault c info s).params =
      s.params := rfl
@[simp] theorem recordFault_args (c : FaultCode) (info : Word) (s : State) :
    (recordFault c info s).args =
      s.args := rfl
@[simp] theorem recordFault_state (c : FaultCode) (info : Word) (s : State) :
    (recordFault c info s).state =
      s.state := rfl
@[simp] theorem recordFault_cmd (c : FaultCode) (info : Word) (s : State) : (recordFault c info s).cmd = s.cmd := rfl
@[simp] theorem recordFault_done (c : FaultCode) (info : Word) (s : State) :
    (recordFault c info s).done =
      s.done := rfl
@[simp] theorem recordFault_fault (c : FaultCode) (info : Word) (s : State) :
    (recordFault c info s).fault =
      some c := rfl
@[simp] theorem recordFault_cmdovr (c : FaultCode) (info : Word) (s : State) :
    (recordFault c info s).cmdovr =
      s.cmdovr := rfl
@[simp] theorem recordFault_accerr (c : FaultCode) (info : Word) (s : State) :
    (recordFault c info s).accerr =
      s.accerr := rfl
@[simp] theorem recordFault_mode (c : FaultCode) (info : Word) (s : State) :
    (recordFault c info s).mode =
      s.mode := rfl
@[simp] theorem recordFault_cumv (c : FaultCode) (info : Word) (s : State) :
    (recordFault c info s).cumv =
      s.cumv := rfl
@[simp] theorem recordFault_symv (c : FaultCode) (info : Word) (s : State) :
    (recordFault c info s).symv =
      s.symv := rfl
@[simp] theorem recordFault_lutv (c : FaultCode) (info : Word) (s : State) :
    (recordFault c info s).lutv =
      s.lutv := rfl
@[simp] theorem recordFault_ie (c : FaultCode) (info : Word) (s : State) : (recordFault c info s).ie = s.ie := rfl
@[simp] theorem recordFault_finfo (c : FaultCode) (info : Word) (s : State) :
    (recordFault c info s).finfo =
      info := rfl
@[simp] theorem recordFault_fop (c : FaultCode) (info : Word) (s : State) :
    (recordFault c info s).fop =
      latchedOp s := rfl
@[simp] theorem recordFault_wptr (c : FaultCode) (info : Word) (s : State) :
    (recordFault c info s).wptr =
      s.wptr := rfl
@[simp] theorem recordFault_wend (c : FaultCode) (info : Word) (s : State) :
    (recordFault c info s).wend =
      s.wend := rfl
@[simp] theorem recordFault_wlim (c : FaultCode) (info : Word) (s : State) :
    (recordFault c info s).wlim =
      s.wlim := rfl
@[simp] theorem recordFault_rptr (c : FaultCode) (info : Word) (s : State) :
    (recordFault c info s).rptr =
      s.rptr := rfl
@[simp] theorem recordFault_rlim (c : FaultCode) (info : Word) (s : State) :
    (recordFault c info s).rlim =
      s.rlim := rfl
@[simp] theorem recordFault_result (c : FaultCode) (info : Word) (s : State) :
    (recordFault c info s).result =
      s.result := rfl
@[simp] theorem recordFault_total (c : FaultCode) (info : Word) (s : State) :
    (recordFault c info s).total =
      s.total := rfl
@[simp] theorem recordFault_outlen (c : FaultCode) (info : Word) (s : State) :
    (recordFault c info s).outlen =
      0 := rfl
@[simp] theorem recordFault_cnt (c : FaultCode) (info : Word) (s : State) : (recordFault c info s).cnt = s.cnt := rfl
@[simp] theorem recordFault_cum (c : FaultCode) (info : Word) (s : State) : (recordFault c info s).cum = s.cum := rfl
@[simp] theorem recordFault_symtab (c : FaultCode) (info : Word) (s : State) :
    (recordFault c info s).symtab =
      s.symtab := rfl
@[simp] theorem recordFault_lut (c : FaultCode) (info : Word) (s : State) : (recordFault c info s).lut = s.lut := rfl
@[simp] theorem recordFault_wmem (c : FaultCode) (info : Word) (s : State) :
    (recordFault c info s).wmem =
      s.wmem := rfl
@[simp] theorem recordFault_latch (c : FaultCode) (info : Word) (s : State) :
    (recordFault c info s).latch =
      none := rfl
@[simp] theorem recordFault_inbox (c : FaultCode) (info : Word) (s : State) :
    (recordFault c info s).inbox =
      s.inbox := rfl
@[simp] theorem recordFault_rdata (c : FaultCode) (info : Word) (s : State) :
    (recordFault c info s).rdata =
      s.rdata := rfl
@[simp] theorem recordFault_draws (c : FaultCode) (info : Word) (s : State) :
    (recordFault c info s).draws =
      s.draws := rfl

/-! ### Dropping the tables (10_state.md R32, R33). -/

@[simp] theorem dropTables_params (s : State) : (dropTables s).params = s.params := rfl
@[simp] theorem dropTables_args (s : State) : (dropTables s).args = s.args := rfl
@[simp] theorem dropTables_state (s : State) : (dropTables s).state = s.state := rfl
@[simp] theorem dropTables_cmd (s : State) : (dropTables s).cmd = s.cmd := rfl
@[simp] theorem dropTables_done (s : State) : (dropTables s).done = s.done := rfl
@[simp] theorem dropTables_fault (s : State) : (dropTables s).fault = s.fault := rfl
@[simp] theorem dropTables_cmdovr (s : State) : (dropTables s).cmdovr = s.cmdovr := rfl
@[simp] theorem dropTables_accerr (s : State) : (dropTables s).accerr = s.accerr := rfl
@[simp] theorem dropTables_mode (s : State) : (dropTables s).mode = .idle := rfl
@[simp] theorem dropTables_cumv (s : State) : (dropTables s).cumv = false := rfl
@[simp] theorem dropTables_symv (s : State) : (dropTables s).symv = false := rfl
@[simp] theorem dropTables_lutv (s : State) : (dropTables s).lutv = false := rfl
@[simp] theorem dropTables_ie (s : State) : (dropTables s).ie = s.ie := rfl
@[simp] theorem dropTables_finfo (s : State) : (dropTables s).finfo = s.finfo := rfl
@[simp] theorem dropTables_fop (s : State) : (dropTables s).fop = s.fop := rfl
@[simp] theorem dropTables_wptr (s : State) : (dropTables s).wptr = s.wptr := rfl
@[simp] theorem dropTables_wend (s : State) : (dropTables s).wend = s.wend := rfl
@[simp] theorem dropTables_wlim (s : State) : (dropTables s).wlim = s.wlim := rfl
@[simp] theorem dropTables_rptr (s : State) : (dropTables s).rptr = s.rptr := rfl
@[simp] theorem dropTables_rlim (s : State) : (dropTables s).rlim = s.rlim := rfl
@[simp] theorem dropTables_result (s : State) : (dropTables s).result = s.result := rfl
@[simp] theorem dropTables_total (s : State) : (dropTables s).total = s.total := rfl
@[simp] theorem dropTables_outlen (s : State) : (dropTables s).outlen = s.outlen := rfl
@[simp] theorem dropTables_cnt (s : State) : (dropTables s).cnt = s.cnt := rfl
@[simp] theorem dropTables_cum (s : State) : (dropTables s).cum = s.cum := rfl
@[simp] theorem dropTables_symtab (s : State) : (dropTables s).symtab = s.symtab := rfl
@[simp] theorem dropTables_lut (s : State) : (dropTables s).lut = s.lut := rfl
@[simp] theorem dropTables_wmem (s : State) : (dropTables s).wmem = s.wmem := rfl
@[simp] theorem dropTables_latch (s : State) : (dropTables s).latch = s.latch := rfl
@[simp] theorem dropTables_inbox (s : State) : (dropTables s).inbox = s.inbox := rfl
@[simp] theorem dropTables_rdata (s : State) : (dropTables s).rdata = s.rdata := rfl
@[simp] theorem dropTables_draws (s : State) : (dropTables s).draws = s.draws := rfl

/-! ### Acceptance (45_control.md R211). -/

@[simp] theorem accept_params (w : Word) (s : State) : (accept w s).params = s.params := rfl
@[simp] theorem accept_args (w : Word) (s : State) : (accept w s).args = s.args := rfl
@[simp] theorem accept_state (w : Word) (s : State) : (accept w s).state = s.state := rfl
@[simp] theorem accept_cmd (w : Word) (s : State) : (accept w s).cmd = w := rfl
@[simp] theorem accept_done (w : Word) (s : State) : (accept w s).done = false := rfl
@[simp] theorem accept_fault (w : Word) (s : State) : (accept w s).fault = s.fault := rfl
@[simp] theorem accept_cmdovr (w : Word) (s : State) : (accept w s).cmdovr = s.cmdovr := rfl
@[simp] theorem accept_accerr (w : Word) (s : State) : (accept w s).accerr = s.accerr := rfl
@[simp] theorem accept_mode (w : Word) (s : State) : (accept w s).mode = s.mode := rfl
@[simp] theorem accept_cumv (w : Word) (s : State) : (accept w s).cumv = s.cumv := rfl
@[simp] theorem accept_symv (w : Word) (s : State) : (accept w s).symv = s.symv := rfl
@[simp] theorem accept_lutv (w : Word) (s : State) : (accept w s).lutv = s.lutv := rfl
@[simp] theorem accept_ie (w : Word) (s : State) : (accept w s).ie = s.ie := rfl
@[simp] theorem accept_finfo (w : Word) (s : State) : (accept w s).finfo = s.finfo := rfl
@[simp] theorem accept_fop (w : Word) (s : State) : (accept w s).fop = s.fop := rfl
@[simp] theorem accept_wptr (w : Word) (s : State) : (accept w s).wptr = s.wptr := rfl
@[simp] theorem accept_wend (w : Word) (s : State) : (accept w s).wend = s.wend := rfl
@[simp] theorem accept_wlim (w : Word) (s : State) : (accept w s).wlim = s.wlim := rfl
@[simp] theorem accept_rptr (w : Word) (s : State) : (accept w s).rptr = s.rptr := rfl
@[simp] theorem accept_rlim (w : Word) (s : State) : (accept w s).rlim = s.rlim := rfl
@[simp] theorem accept_result (w : Word) (s : State) : (accept w s).result = s.result := rfl
@[simp] theorem accept_total (w : Word) (s : State) : (accept w s).total = s.total := rfl
@[simp] theorem accept_outlen (w : Word) (s : State) : (accept w s).outlen = s.outlen := rfl
@[simp] theorem accept_cnt (w : Word) (s : State) : (accept w s).cnt = s.cnt := rfl
@[simp] theorem accept_cum (w : Word) (s : State) : (accept w s).cum = s.cum := rfl
@[simp] theorem accept_symtab (w : Word) (s : State) : (accept w s).symtab = s.symtab := rfl
@[simp] theorem accept_lut (w : Word) (s : State) : (accept w s).lut = s.lut := rfl
@[simp] theorem accept_wmem (w : Word) (s : State) : (accept w s).wmem = s.wmem := rfl
@[simp] theorem accept_latch (w : Word) (s : State) : (accept w s).latch = some ⟨w, s.args⟩ := rfl
@[simp] theorem accept_inbox (w : Word) (s : State) : (accept w s).inbox = s.inbox := rfl
@[simp] theorem accept_rdata (w : Word) (s : State) : (accept w s).rdata = s.rdata := rfl
@[simp] theorem accept_draws (w : Word) (s : State) : (accept w s).draws = s.draws := rfl

/-! ### Flagging a busy access (20_memory.md R72). -/

@[simp] theorem flagAccess_params (s : State) : (flagAccess s).params = s.params := rfl
@[simp] theorem flagAccess_args (s : State) : (flagAccess s).args = s.args := rfl
@[simp] theorem flagAccess_state (s : State) : (flagAccess s).state = s.state := rfl
@[simp] theorem flagAccess_cmd (s : State) : (flagAccess s).cmd = s.cmd := rfl
@[simp] theorem flagAccess_done (s : State) : (flagAccess s).done = s.done := rfl
@[simp] theorem flagAccess_fault (s : State) : (flagAccess s).fault = s.fault := rfl
@[simp] theorem flagAccess_cmdovr (s : State) : (flagAccess s).cmdovr = s.cmdovr := rfl
@[simp] theorem flagAccess_accerr (s : State) : (flagAccess s).accerr = true := rfl
@[simp] theorem flagAccess_mode (s : State) : (flagAccess s).mode = s.mode := rfl
@[simp] theorem flagAccess_cumv (s : State) : (flagAccess s).cumv = s.cumv := rfl
@[simp] theorem flagAccess_symv (s : State) : (flagAccess s).symv = s.symv := rfl
@[simp] theorem flagAccess_lutv (s : State) : (flagAccess s).lutv = s.lutv := rfl
@[simp] theorem flagAccess_ie (s : State) : (flagAccess s).ie = s.ie := rfl
@[simp] theorem flagAccess_finfo (s : State) : (flagAccess s).finfo = s.finfo := rfl
@[simp] theorem flagAccess_fop (s : State) : (flagAccess s).fop = s.fop := rfl
@[simp] theorem flagAccess_wptr (s : State) : (flagAccess s).wptr = s.wptr := rfl
@[simp] theorem flagAccess_wend (s : State) : (flagAccess s).wend = s.wend := rfl
@[simp] theorem flagAccess_wlim (s : State) : (flagAccess s).wlim = s.wlim := rfl
@[simp] theorem flagAccess_rptr (s : State) : (flagAccess s).rptr = s.rptr := rfl
@[simp] theorem flagAccess_rlim (s : State) : (flagAccess s).rlim = s.rlim := rfl
@[simp] theorem flagAccess_result (s : State) : (flagAccess s).result = s.result := rfl
@[simp] theorem flagAccess_total (s : State) : (flagAccess s).total = s.total := rfl
@[simp] theorem flagAccess_outlen (s : State) : (flagAccess s).outlen = s.outlen := rfl
@[simp] theorem flagAccess_cnt (s : State) : (flagAccess s).cnt = s.cnt := rfl
@[simp] theorem flagAccess_cum (s : State) : (flagAccess s).cum = s.cum := rfl
@[simp] theorem flagAccess_symtab (s : State) : (flagAccess s).symtab = s.symtab := rfl
@[simp] theorem flagAccess_lut (s : State) : (flagAccess s).lut = s.lut := rfl
@[simp] theorem flagAccess_wmem (s : State) : (flagAccess s).wmem = s.wmem := rfl
@[simp] theorem flagAccess_latch (s : State) : (flagAccess s).latch = s.latch := rfl
@[simp] theorem flagAccess_inbox (s : State) : (flagAccess s).inbox = s.inbox := rfl
@[simp] theorem flagAccess_rdata (s : State) : (flagAccess s).rdata = s.rdata := rfl
@[simp] theorem flagAccess_draws (s : State) : (flagAccess s).draws = s.draws := rfl

/-! ### Answering a host read (45_control.md R218, R219). -/

@[simp] theorem answerRead_params (v : Word) (s : State) : (answerRead v s).params = s.params := rfl
@[simp] theorem answerRead_args (v : Word) (s : State) : (answerRead v s).args = s.args := rfl
@[simp] theorem answerRead_state (v : Word) (s : State) : (answerRead v s).state = s.state := rfl
@[simp] theorem answerRead_cmd (v : Word) (s : State) : (answerRead v s).cmd = s.cmd := rfl
@[simp] theorem answerRead_done (v : Word) (s : State) : (answerRead v s).done = s.done := rfl
@[simp] theorem answerRead_fault (v : Word) (s : State) : (answerRead v s).fault = s.fault := rfl
@[simp] theorem answerRead_cmdovr (v : Word) (s : State) : (answerRead v s).cmdovr = s.cmdovr := rfl
@[simp] theorem answerRead_accerr (v : Word) (s : State) : (answerRead v s).accerr = s.accerr := rfl
@[simp] theorem answerRead_mode (v : Word) (s : State) : (answerRead v s).mode = s.mode := rfl
@[simp] theorem answerRead_cumv (v : Word) (s : State) : (answerRead v s).cumv = s.cumv := rfl
@[simp] theorem answerRead_symv (v : Word) (s : State) : (answerRead v s).symv = s.symv := rfl
@[simp] theorem answerRead_lutv (v : Word) (s : State) : (answerRead v s).lutv = s.lutv := rfl
@[simp] theorem answerRead_ie (v : Word) (s : State) : (answerRead v s).ie = s.ie := rfl
@[simp] theorem answerRead_finfo (v : Word) (s : State) : (answerRead v s).finfo = s.finfo := rfl
@[simp] theorem answerRead_fop (v : Word) (s : State) : (answerRead v s).fop = s.fop := rfl
@[simp] theorem answerRead_wptr (v : Word) (s : State) : (answerRead v s).wptr = s.wptr := rfl
@[simp] theorem answerRead_wend (v : Word) (s : State) : (answerRead v s).wend = s.wend := rfl
@[simp] theorem answerRead_wlim (v : Word) (s : State) : (answerRead v s).wlim = s.wlim := rfl
@[simp] theorem answerRead_rptr (v : Word) (s : State) : (answerRead v s).rptr = s.rptr := rfl
@[simp] theorem answerRead_rlim (v : Word) (s : State) : (answerRead v s).rlim = s.rlim := rfl
@[simp] theorem answerRead_result (v : Word) (s : State) : (answerRead v s).result = s.result := rfl
@[simp] theorem answerRead_total (v : Word) (s : State) : (answerRead v s).total = s.total := rfl
@[simp] theorem answerRead_outlen (v : Word) (s : State) : (answerRead v s).outlen = s.outlen := rfl
@[simp] theorem answerRead_cnt (v : Word) (s : State) : (answerRead v s).cnt = s.cnt := rfl
@[simp] theorem answerRead_cum (v : Word) (s : State) : (answerRead v s).cum = s.cum := rfl
@[simp] theorem answerRead_symtab (v : Word) (s : State) : (answerRead v s).symtab = s.symtab := rfl
@[simp] theorem answerRead_lut (v : Word) (s : State) : (answerRead v s).lut = s.lut := rfl
@[simp] theorem answerRead_wmem (v : Word) (s : State) : (answerRead v s).wmem = s.wmem := rfl
@[simp] theorem answerRead_latch (v : Word) (s : State) : (answerRead v s).latch = s.latch := rfl
@[simp] theorem answerRead_inbox (v : Word) (s : State) : (answerRead v s).inbox = s.inbox := rfl
@[simp] theorem answerRead_rdata (v : Word) (s : State) : (answerRead v s).rdata = some v := rfl
@[simp] theorem answerRead_draws (v : Word) (s : State) : (answerRead v s).draws = s.draws := rfl

/-! ### Answering a host read with a draw (20_memory.md R72). -/

@[simp] theorem answerDraw_params (w : Width) (s : State) : (answerDraw w s).params = s.params := rfl
@[simp] theorem answerDraw_args (w : Width) (s : State) : (answerDraw w s).args = s.args := rfl
@[simp] theorem answerDraw_state (w : Width) (s : State) : (answerDraw w s).state = s.state := rfl
@[simp] theorem answerDraw_cmd (w : Width) (s : State) : (answerDraw w s).cmd = s.cmd := rfl
@[simp] theorem answerDraw_done (w : Width) (s : State) : (answerDraw w s).done = s.done := rfl
@[simp] theorem answerDraw_fault (w : Width) (s : State) : (answerDraw w s).fault = s.fault := rfl
@[simp] theorem answerDraw_cmdovr (w : Width) (s : State) : (answerDraw w s).cmdovr = s.cmdovr := rfl
@[simp] theorem answerDraw_accerr (w : Width) (s : State) : (answerDraw w s).accerr = s.accerr := rfl
@[simp] theorem answerDraw_mode (w : Width) (s : State) : (answerDraw w s).mode = s.mode := rfl
@[simp] theorem answerDraw_cumv (w : Width) (s : State) : (answerDraw w s).cumv = s.cumv := rfl
@[simp] theorem answerDraw_symv (w : Width) (s : State) : (answerDraw w s).symv = s.symv := rfl
@[simp] theorem answerDraw_lutv (w : Width) (s : State) : (answerDraw w s).lutv = s.lutv := rfl
@[simp] theorem answerDraw_ie (w : Width) (s : State) : (answerDraw w s).ie = s.ie := rfl
@[simp] theorem answerDraw_finfo (w : Width) (s : State) : (answerDraw w s).finfo = s.finfo := rfl
@[simp] theorem answerDraw_fop (w : Width) (s : State) : (answerDraw w s).fop = s.fop := rfl
@[simp] theorem answerDraw_wptr (w : Width) (s : State) : (answerDraw w s).wptr = s.wptr := rfl
@[simp] theorem answerDraw_wend (w : Width) (s : State) : (answerDraw w s).wend = s.wend := rfl
@[simp] theorem answerDraw_wlim (w : Width) (s : State) : (answerDraw w s).wlim = s.wlim := rfl
@[simp] theorem answerDraw_rptr (w : Width) (s : State) : (answerDraw w s).rptr = s.rptr := rfl
@[simp] theorem answerDraw_rlim (w : Width) (s : State) : (answerDraw w s).rlim = s.rlim := rfl
@[simp] theorem answerDraw_result (w : Width) (s : State) : (answerDraw w s).result = s.result := rfl
@[simp] theorem answerDraw_total (w : Width) (s : State) : (answerDraw w s).total = s.total := rfl
@[simp] theorem answerDraw_outlen (w : Width) (s : State) : (answerDraw w s).outlen = s.outlen := rfl
@[simp] theorem answerDraw_cnt (w : Width) (s : State) : (answerDraw w s).cnt = s.cnt := rfl
@[simp] theorem answerDraw_cum (w : Width) (s : State) : (answerDraw w s).cum = s.cum := rfl
@[simp] theorem answerDraw_symtab (w : Width) (s : State) : (answerDraw w s).symtab = s.symtab := rfl
@[simp] theorem answerDraw_lut (w : Width) (s : State) : (answerDraw w s).lut = s.lut := rfl
@[simp] theorem answerDraw_wmem (w : Width) (s : State) : (answerDraw w s).wmem = s.wmem := rfl
@[simp] theorem answerDraw_latch (w : Width) (s : State) : (answerDraw w s).latch = s.latch := rfl
@[simp] theorem answerDraw_inbox (w : Width) (s : State) : (answerDraw w s).inbox = s.inbox := rfl
@[simp] theorem answerDraw_rdata (w : Width) (s : State) :
    (answerDraw w s).rdata =
      some (BitVec.ofNat 32 ((Config.freeValue s.draws .busRead 0).toNat % 2 ^ (8 * widthBytes w))) := rfl
@[simp] theorem answerDraw_draws (w : Width) (s : State) : (answerDraw w s).draws = s.draws + 1 := rfl

/-! ### A STATUS write (45_control.md R213). -/

@[simp] theorem clearStatus_params (v : Word) (s : State) : (clearStatus v s).params = s.params := rfl
@[simp] theorem clearStatus_args (v : Word) (s : State) : (clearStatus v s).args = s.args := rfl
@[simp] theorem clearStatus_state (v : Word) (s : State) : (clearStatus v s).state = s.state := rfl
@[simp] theorem clearStatus_cmd (v : Word) (s : State) : (clearStatus v s).cmd = s.cmd := rfl
@[simp] theorem clearStatus_done (v : Word) (s : State) : (clearStatus v s).done = (s.done && !v.getLsbD 1) := rfl
@[simp] theorem clearStatus_fault (v : Word) (s : State) :
    (clearStatus v s).fault =
      if v.getLsbD 2 then none else s.fault := rfl
@[simp] theorem clearStatus_cmdovr (v : Word) (s : State) :
    (clearStatus v s).cmdovr =
      (s.cmdovr && !v.getLsbD 3) := rfl
@[simp] theorem clearStatus_accerr (v : Word) (s : State) :
    (clearStatus v s).accerr =
      (s.accerr && !v.getLsbD 4) := rfl
@[simp] theorem clearStatus_mode (v : Word) (s : State) : (clearStatus v s).mode = s.mode := rfl
@[simp] theorem clearStatus_cumv (v : Word) (s : State) : (clearStatus v s).cumv = s.cumv := rfl
@[simp] theorem clearStatus_symv (v : Word) (s : State) : (clearStatus v s).symv = s.symv := rfl
@[simp] theorem clearStatus_lutv (v : Word) (s : State) : (clearStatus v s).lutv = s.lutv := rfl
@[simp] theorem clearStatus_ie (v : Word) (s : State) : (clearStatus v s).ie = s.ie := rfl
@[simp] theorem clearStatus_finfo (v : Word) (s : State) : (clearStatus v s).finfo = s.finfo := rfl
@[simp] theorem clearStatus_fop (v : Word) (s : State) : (clearStatus v s).fop = s.fop := rfl
@[simp] theorem clearStatus_wptr (v : Word) (s : State) : (clearStatus v s).wptr = s.wptr := rfl
@[simp] theorem clearStatus_wend (v : Word) (s : State) : (clearStatus v s).wend = s.wend := rfl
@[simp] theorem clearStatus_wlim (v : Word) (s : State) : (clearStatus v s).wlim = s.wlim := rfl
@[simp] theorem clearStatus_rptr (v : Word) (s : State) : (clearStatus v s).rptr = s.rptr := rfl
@[simp] theorem clearStatus_rlim (v : Word) (s : State) : (clearStatus v s).rlim = s.rlim := rfl
@[simp] theorem clearStatus_result (v : Word) (s : State) : (clearStatus v s).result = s.result := rfl
@[simp] theorem clearStatus_total (v : Word) (s : State) : (clearStatus v s).total = s.total := rfl
@[simp] theorem clearStatus_outlen (v : Word) (s : State) : (clearStatus v s).outlen = s.outlen := rfl
@[simp] theorem clearStatus_cnt (v : Word) (s : State) : (clearStatus v s).cnt = s.cnt := rfl
@[simp] theorem clearStatus_cum (v : Word) (s : State) : (clearStatus v s).cum = s.cum := rfl
@[simp] theorem clearStatus_symtab (v : Word) (s : State) : (clearStatus v s).symtab = s.symtab := rfl
@[simp] theorem clearStatus_lut (v : Word) (s : State) : (clearStatus v s).lut = s.lut := rfl
@[simp] theorem clearStatus_wmem (v : Word) (s : State) : (clearStatus v s).wmem = s.wmem := rfl
@[simp] theorem clearStatus_latch (v : Word) (s : State) : (clearStatus v s).latch = s.latch := rfl
@[simp] theorem clearStatus_inbox (v : Word) (s : State) : (clearStatus v s).inbox = s.inbox := rfl
@[simp] theorem clearStatus_rdata (v : Word) (s : State) : (clearStatus v s).rdata = s.rdata := rfl
@[simp] theorem clearStatus_draws (v : Word) (s : State) : (clearStatus v s).draws = s.draws := rfl

/-! ### A CTRL write (45_control.md R214). -/

@[simp] theorem setCtrl_params (v : Word) (s : State) : (setCtrl v s).params = s.params := rfl
@[simp] theorem setCtrl_args (v : Word) (s : State) : (setCtrl v s).args = s.args := rfl
@[simp] theorem setCtrl_state (v : Word) (s : State) : (setCtrl v s).state = s.state := rfl
@[simp] theorem setCtrl_cmd (v : Word) (s : State) : (setCtrl v s).cmd = s.cmd := rfl
@[simp] theorem setCtrl_done (v : Word) (s : State) : (setCtrl v s).done = s.done := rfl
@[simp] theorem setCtrl_fault (v : Word) (s : State) : (setCtrl v s).fault = s.fault := rfl
@[simp] theorem setCtrl_cmdovr (v : Word) (s : State) : (setCtrl v s).cmdovr = s.cmdovr := rfl
@[simp] theorem setCtrl_accerr (v : Word) (s : State) : (setCtrl v s).accerr = s.accerr := rfl
@[simp] theorem setCtrl_mode (v : Word) (s : State) : (setCtrl v s).mode = s.mode := rfl
@[simp] theorem setCtrl_cumv (v : Word) (s : State) : (setCtrl v s).cumv = s.cumv := rfl
@[simp] theorem setCtrl_symv (v : Word) (s : State) : (setCtrl v s).symv = s.symv := rfl
@[simp] theorem setCtrl_lutv (v : Word) (s : State) : (setCtrl v s).lutv = s.lutv := rfl
@[simp] theorem setCtrl_ie (v : Word) (s : State) : (setCtrl v s).ie = v.getLsbD 0 := rfl
@[simp] theorem setCtrl_finfo (v : Word) (s : State) : (setCtrl v s).finfo = s.finfo := rfl
@[simp] theorem setCtrl_fop (v : Word) (s : State) : (setCtrl v s).fop = s.fop := rfl
@[simp] theorem setCtrl_wptr (v : Word) (s : State) : (setCtrl v s).wptr = s.wptr := rfl
@[simp] theorem setCtrl_wend (v : Word) (s : State) : (setCtrl v s).wend = s.wend := rfl
@[simp] theorem setCtrl_wlim (v : Word) (s : State) : (setCtrl v s).wlim = s.wlim := rfl
@[simp] theorem setCtrl_rptr (v : Word) (s : State) : (setCtrl v s).rptr = s.rptr := rfl
@[simp] theorem setCtrl_rlim (v : Word) (s : State) : (setCtrl v s).rlim = s.rlim := rfl
@[simp] theorem setCtrl_result (v : Word) (s : State) : (setCtrl v s).result = s.result := rfl
@[simp] theorem setCtrl_total (v : Word) (s : State) : (setCtrl v s).total = s.total := rfl
@[simp] theorem setCtrl_outlen (v : Word) (s : State) : (setCtrl v s).outlen = s.outlen := rfl
@[simp] theorem setCtrl_cnt (v : Word) (s : State) : (setCtrl v s).cnt = s.cnt := rfl
@[simp] theorem setCtrl_cum (v : Word) (s : State) : (setCtrl v s).cum = s.cum := rfl
@[simp] theorem setCtrl_symtab (v : Word) (s : State) : (setCtrl v s).symtab = s.symtab := rfl
@[simp] theorem setCtrl_lut (v : Word) (s : State) : (setCtrl v s).lut = s.lut := rfl
@[simp] theorem setCtrl_wmem (v : Word) (s : State) : (setCtrl v s).wmem = s.wmem := rfl
@[simp] theorem setCtrl_latch (v : Word) (s : State) : (setCtrl v s).latch = s.latch := rfl
@[simp] theorem setCtrl_inbox (v : Word) (s : State) : (setCtrl v s).inbox = s.inbox := rfl
@[simp] theorem setCtrl_rdata (v : Word) (s : State) : (setCtrl v s).rdata = s.rdata := rfl
@[simp] theorem setCtrl_draws (v : Word) (s : State) : (setCtrl v s).draws = s.draws := rfl

/-! ### Storing a decoded symbol (43_block_codec.md R184). -/

@[simp] theorem storeResult_params (dst : Nat) (s : State) : (storeResult dst s).params = s.params := rfl
@[simp] theorem storeResult_args (dst : Nat) (s : State) : (storeResult dst s).args = s.args := rfl
@[simp] theorem storeResult_state (dst : Nat) (s : State) : (storeResult dst s).state = s.state := rfl
@[simp] theorem storeResult_cmd (dst : Nat) (s : State) : (storeResult dst s).cmd = s.cmd := rfl
@[simp] theorem storeResult_done (dst : Nat) (s : State) : (storeResult dst s).done = s.done := rfl
@[simp] theorem storeResult_fault (dst : Nat) (s : State) : (storeResult dst s).fault = s.fault := rfl
@[simp] theorem storeResult_cmdovr (dst : Nat) (s : State) : (storeResult dst s).cmdovr = s.cmdovr := rfl
@[simp] theorem storeResult_accerr (dst : Nat) (s : State) : (storeResult dst s).accerr = s.accerr := rfl
@[simp] theorem storeResult_mode (dst : Nat) (s : State) : (storeResult dst s).mode = s.mode := rfl
@[simp] theorem storeResult_cumv (dst : Nat) (s : State) : (storeResult dst s).cumv = s.cumv := rfl
@[simp] theorem storeResult_symv (dst : Nat) (s : State) : (storeResult dst s).symv = s.symv := rfl
@[simp] theorem storeResult_lutv (dst : Nat) (s : State) : (storeResult dst s).lutv = s.lutv := rfl
@[simp] theorem storeResult_ie (dst : Nat) (s : State) : (storeResult dst s).ie = s.ie := rfl
@[simp] theorem storeResult_finfo (dst : Nat) (s : State) : (storeResult dst s).finfo = s.finfo := rfl
@[simp] theorem storeResult_fop (dst : Nat) (s : State) : (storeResult dst s).fop = s.fop := rfl
@[simp] theorem storeResult_wptr (dst : Nat) (s : State) : (storeResult dst s).wptr = s.wptr := rfl
@[simp] theorem storeResult_wend (dst : Nat) (s : State) : (storeResult dst s).wend = s.wend := rfl
@[simp] theorem storeResult_wlim (dst : Nat) (s : State) : (storeResult dst s).wlim = s.wlim := rfl
@[simp] theorem storeResult_rptr (dst : Nat) (s : State) : (storeResult dst s).rptr = s.rptr := rfl
@[simp] theorem storeResult_rlim (dst : Nat) (s : State) : (storeResult dst s).rlim = s.rlim := rfl
@[simp] theorem storeResult_result (dst : Nat) (s : State) : (storeResult dst s).result = s.result := rfl
@[simp] theorem storeResult_total (dst : Nat) (s : State) : (storeResult dst s).total = s.total := rfl
@[simp] theorem storeResult_outlen (dst : Nat) (s : State) : (storeResult dst s).outlen = s.outlen := rfl
@[simp] theorem storeResult_cnt (dst : Nat) (s : State) : (storeResult dst s).cnt = s.cnt := rfl
@[simp] theorem storeResult_cum (dst : Nat) (s : State) : (storeResult dst s).cum = s.cum := rfl
@[simp] theorem storeResult_symtab (dst : Nat) (s : State) : (storeResult dst s).symtab = s.symtab := rfl
@[simp] theorem storeResult_lut (dst : Nat) (s : State) : (storeResult dst s).lut = s.lut := rfl
@[simp] theorem storeResult_wmem (dst : Nat) (s : State) :
    (storeResult dst s).wmem =
      writeByte s.wmem dst s.result := rfl
@[simp] theorem storeResult_latch (dst : Nat) (s : State) : (storeResult dst s).latch = s.latch := rfl
@[simp] theorem storeResult_inbox (dst : Nat) (s : State) : (storeResult dst s).inbox = s.inbox := rfl
@[simp] theorem storeResult_rdata (dst : Nat) (s : State) : (storeResult dst s).rdata = s.rdata := rfl
@[simp] theorem storeResult_draws (dst : Nat) (s : State) : (storeResult dst s).draws = s.draws := rfl

/-! ### Taking an event from the inbox -/

theorem nextEvent_empty (s : State) (h : s.inbox = []) : nextEvent s = (.engine, s) := by
  simp [nextEvent, h]

theorem nextEvent_cons (s : State) (e : Event) (rest : List Event) (h : s.inbox = e :: rest) :
    nextEvent s = (e, { s with inbox := rest }) := by
  simp [nextEvent, h]

/-! ### The busy bit -/

@[simp] theorem busy_iff (s : State) : s.busy = true ↔ ∃ l, s.latch = some l := by
  simp [State.busy, Option.isSome_iff_exists]

@[simp] theorem not_busy_iff (s : State) : s.busy = false ↔ s.latch = none := by
  simp [State.busy]

end Sys2Proof.Machine
end

