-- ==== Sys2Proof/Laws/Ops.lean ====
section
/-! SUPPORT. Everything the shared operations can do, once each: running a command, the steps of a composite, taking a
fault, and the rules that the composites share. -/

namespace Sys2Proof.Machine

/-! ### Running a command -/

/-- The rule each command runs on its latched operands. -/
def ruleOf (i : Instr) (a : Operands) (s : State) : CmdResult :=
  match i with
  | .nop => nopRule s
  | .count => countRule a.a0.toNat a.a1.toNat s
  | .norm => normRule s
  | .symtab => symtabRule s
  | .lutgen => lutgenRule s
  | .encinit => encinitRule a.a0 a.a1 s
  | .encput sym => encputRule sym s
  | .encflush => encflushRule s
  | .decinit => decinitRule a.a0 a.a1 s
  | .decget => decgetRule s
  | .encode => encodeRule a.a0 a.a1 a.a2 a.a3 s
  | .decode => decodeRule a.a0 a.a1 a.a2 a.a3 s
  | .expand => expandRule a.a0.toNat a.a1.toNat a.a2.toNat s
  | .pack => packRule a.a0.toNat a.a1.toNat a.a2.toNat s
  | .stcnt => stcntRule a.a0.toNat a.a1.toNat s
  | .ldcnt => ldcntRule a.a0.toNat a.a1.toNat s

theorem exec_eq_runCommand (i : Instr) (s : State) : exec i s = runCommand i (ruleOf i) s := by
  cases i <;> rfl

theorem runCommand_idle (i : Instr) (rule : Operands → State → CmdResult) (s : State) (h : s.latch = none) :
    runCommand i rule s = .refused .noCommandLatched := by
  simp [runCommand, h]

theorem runCommand_done (i : Instr) (rule : Operands → State → CmdResult) (s t : State) (l : Latch)
    (h : s.latch = some l) (hr : rule l.ops s = .done t) : runCommand i rule s = .next (complete t) := by
  simp [runCommand, h, hr]

theorem runCommand_raised (i : Instr) (rule : Operands → State → CmdResult) (s : State) (l : Latch) (c : FaultCode)
    (info : Word) (h : s.latch = some l) (hr : rule l.ops s = .raised c info) :
    runCommand i rule s = .next (takeFault i c info l.ops s) := by
  simp [runCommand, h, hr]

/-- A command that answers a next state has completed, or has taken the fault its rule raised. -/
theorem runCommand_cases {i : Instr} {rule : Operands → State → CmdResult} {s t : State}
    (h : runCommand i rule s = .next t) :
    ∃ l, s.latch = some l ∧
      ((∃ u, rule l.ops s = .done u ∧ t = complete u) ∨
        ∃ c info, rule l.ops s = .raised c info ∧ t = takeFault i c info l.ops s) := by
  unfold runCommand at h
  cases hl : s.latch with
  | none => rw [hl] at h; cases h
  | some l =>
    rw [hl] at h
    refine ⟨l, rfl, ?_⟩
    cases hr : rule l.ops s with
    | done u => simp only [hr] at h; cases h; exact .inl ⟨u, rfl, rfl⟩
    | raised c info => simp only [hr] at h; cases h; exact .inr ⟨c, info, rfl, rfl⟩
    | stuck p => simp only [hr] at h; cases h

/-- `exec` in one statement: what a next state of any command comes from. -/
theorem exec_cases {i : Instr} {s t : State} (h : exec i s = .next t) :
    ∃ l, s.latch = some l ∧
      ((∃ u, ruleOf i l.ops s = .done u ∧ t = complete u) ∨
        ∃ c info, ruleOf i l.ops s = .raised c info ∧ t = takeFault i c info l.ops s) :=
  runCommand_cases (exec_eq_runCommand i s ▸ h)

/-! ### The steps of a composite -/

@[simp] theorem andThen_done (s : State) (k : State → CmdResult) : (CmdResult.done s).andThen k = k s := rfl

@[simp] theorem andThen_raised (c : FaultCode) (info : Word) (k : State → CmdResult) :
    (CmdResult.raised c info).andThen k = .raised c info := rfl

@[simp] theorem andThen_stuck (p : Word) (k : State → CmdResult) : (CmdResult.stuck p).andThen k = .stuck p := rfl

theorem andThen_eq_done {r : CmdResult} {k : State → CmdResult} {t : State} :
    r.andThen k = .done t ↔ ∃ s, r = .done s ∧ k s = .done t := by
  cases r <;> simp

theorem andThen_eq_raised {r : CmdResult} {k : State → CmdResult} {c : FaultCode} {info : Word} :
    r.andThen k = .raised c info ↔ r = .raised c info ∨ ∃ s, r = .done s ∧ k s = .raised c info := by
  cases r <;> simp

/-! ### Taking a fault -/

theorem takeFault_precise (i : Instr) (c : FaultCode) (info : Word) (ops : Operands) (s : State)
    (h : faultPrecise c = true) : takeFault i c info ops s = recordFault c info s := by
  simp [takeFault, h]

theorem takeFault_abortive (i : Instr) (c : FaultCode) (info : Word) (ops : Operands) (s : State)
    (h : faultPrecise c = false) :
    takeFault i c info ops s =
      recordFault c info { leaveUnspecified i c ops s with mode := .idle, draws := s.draws + 1 } := by
  simp [takeFault, h]

/-- What an abortive fault leaves unspecified is never one of these fields (60_exceptions.md R269). -/
theorem leaveUnspecified_frame (i : Instr) (c : FaultCode) (ops : Operands) (s : State) :
    let t := leaveUnspecified i c ops s
    t.params = s.params ∧ t.args = s.args ∧ t.cmd = s.cmd ∧ t.done = s.done ∧ t.fault = s.fault ∧
      t.cmdovr = s.cmdovr ∧ t.accerr = s.accerr ∧ t.ie = s.ie ∧ t.finfo = s.finfo ∧ t.fop = s.fop ∧
      t.outlen = s.outlen ∧ t.latch = s.latch ∧ t.inbox = s.inbox ∧ t.rdata = s.rdata ∧ t.draws = s.draws := by
  cases i <;> simp only [leaveUnspecified] <;> (try split) <;> simp

/-- What every fault leaves of the handshake and of the host's state (60_exceptions.md R268 to R270). -/
theorem takeFault_frame (i : Instr) (c : FaultCode) (info : Word) (ops : Operands) (s : State) :
    let t := takeFault i c info ops s
    t.params = s.params ∧ t.args = s.args ∧ t.cmd = s.cmd ∧ t.done = s.done ∧ t.fault = some c ∧
      t.cmdovr = s.cmdovr ∧ t.accerr = s.accerr ∧ t.ie = s.ie ∧ t.finfo = info ∧ t.fop = latchedOp s ∧
      t.outlen = 0 ∧ t.latch = none ∧ t.inbox = s.inbox ∧ t.rdata = s.rdata := by
  obtain ⟨h1, h2, h3, h4, -, h6, h7, h8, -, -, -, h12, h13, h14, -⟩ := leaveUnspecified_frame i c ops s
  by_cases h : faultPrecise c = true
  · simp [takeFault_precise, h]
  · simp only [Bool.not_eq_true] at h
    simp [takeFault_abortive, h, h1, h2, h3, h4, h6, h7, h8, h12, h13, h14, latchedOp]

/-- An abortive fault leaves MODE = IDLE. -/
theorem takeFault_abortive_mode (i : Instr) (c : FaultCode) (info : Word) (ops : Operands) (s : State)
    (h : faultPrecise c = false) : (takeFault i c info ops s).mode = .idle := by
  simp [takeFault_abortive, h]

/-- A draw between two bounds lies between them. -/
theorem drawBetween_bounds (n : Nat) (site : Config.DrawSite) (lo hi : Word) (h : lo.toNat ≤ hi.toNat) :
    lo.toNat ≤ (drawBetween n site lo hi).toNat ∧ (drawBetween n site lo hi).toNat ≤ hi.toNat := by
  have hm : (Config.freeValue n site 0).toNat % (hi.toNat - lo.toNat + 1) < hi.toNat - lo.toNat + 1 :=
    Nat.mod_lt _ (by omega)
  have hh := hi.isLt
  unfold drawBetween
  rw [BitVec.toNat_ofNat, Nat.mod_eq_of_lt (by omega)]
  omega

/-! ### The loops of the coder -/

/-- The encoder's renormalization, k turns in: it ends below the threshold, k bytes down. -/
theorem encRenorm_eq_ok {thr room x wptr : Nat} {m : Memory} {e : EncStep}
    (h : encRenorm thr room x wptr m = .ok e) :
    ∃ k, k ≤ room ∧ e.x = x / 256 ^ k ∧ e.wptr = wptr - k ∧ e.x < thr ∧ ∀ j, j < k → thr ≤ x / 256 ^ j := by
  induction room generalizing x wptr m with
  | zero =>
    unfold encRenorm at h
    split at h
    · cases h; exact ⟨0, by simp_all⟩
    · cases h
  | succ r ih =>
    unfold encRenorm at h
    split at h
    · cases h; exact ⟨0, by simp_all⟩
    · obtain ⟨k, hk, hx, hw, ht, hj⟩ := ih h
      refine ⟨k + 1, by omega, ?_, by omega, ht, ?_⟩
      · rw [hx, Nat.div_div_eq_div_mul, Nat.pow_succ, Nat.mul_comm]
      · intro j hjk
        cases j with
        | zero => simpa using by omega
        | succ j =>
          have := hj j (by omega)
          rwa [Nat.div_div_eq_div_mul, Nat.mul_comm, ← Nat.pow_succ] at this

/-- The encoder's renormalization runs out of room at the limit, with the state still at or above the threshold. -/
theorem encRenorm_eq_error {thr room x wptr wp : Nat} {m : Memory} (h : encRenorm thr room x wptr m = .error wp) :
    wp = wptr - room ∧ ∀ j, j ≤ room → thr ≤ x / 256 ^ j := by
  induction room generalizing x wptr m with
  | zero =>
    unfold encRenorm at h
    split at h
    · cases h
    · cases h
      refine ⟨by omega, fun j hj => ?_⟩
      obtain rfl : j = 0 := by omega
      simpa using by omega
  | succ r ih =>
    unfold encRenorm at h
    split at h
    · cases h
    · obtain ⟨hw, hj⟩ := ih h
      refine ⟨by omega, fun j hjr => ?_⟩
      cases j with
      | zero => simpa using by omega
      | succ j =>
        have := hj j (by omega)
        rwa [Nat.div_div_eq_div_mul, Nat.mul_comm, ← Nat.pow_succ] at this

/-- The decoder's renormalization ends at or above LOWER, having taken at most the bytes there are. -/
theorem decRenorm_eq_ok {m : Memory} {avail x rptr : Nat} {r : Nat × Nat} (h : decRenorm m avail x rptr = .ok r) :
    Config.lower ≤ r.1 ∧ rptr ≤ r.2 ∧ r.2 ≤ rptr + avail := by
  induction avail generalizing x rptr with
  | zero =>
    unfold decRenorm at h
    split at h
    · cases h; exact ⟨by assumption, by omega, by omega⟩
    · cases h
  | succ n ih =>
    unfold decRenorm at h
    split at h
    · cases h; exact ⟨by assumption, by omega, by omega⟩
    · have := ih h; omega

/-- The decoder's renormalization runs out of input at the end of the input. -/
theorem decRenorm_eq_error {m : Memory} {avail x rptr rp : Nat} (h : decRenorm m avail x rptr = .error rp) :
    rp = rptr + avail := by
  induction avail generalizing x rptr with
  | zero =>
    unfold decRenorm at h
    split at h
    · cases h
    · cases h; omega
  | succ n ih =>
    unfold decRenorm at h
    split at h
    · cases h
    · have := ih h; omega

end Sys2Proof.Machine
end

