-- ==== Sys2Proof/Laws/PerInstr.lean ====
section
/-! SUPPORT. Statements per command, as syntax: what its word looks like. -/

namespace Sys2Proof.Laws.Encoding

/-- The word of a command is well-formed, and its fields are the command's (30_encoding.md R90, R94, R95). -/
def Statement (i : Instr) : Prop :=
  wordWellFormed (encodeWord i) = true ∧ opField (encodeWord i) = opcodeOf i ∧ immField (encodeWord i) = immOf i ∧
    rsvdField (encodeWord i) = 0

theorem nop : Statement .nop := by unfold Statement; decide

theorem count : Statement .count := by unfold Statement; decide

theorem norm : Statement .norm := by unfold Statement; decide

theorem symtab : Statement .symtab := by unfold Statement; decide

theorem lutgen : Statement .lutgen := by unfold Statement; decide

theorem encinit : Statement .encinit := by unfold Statement; decide

theorem encput (sym : Byte) : Statement (.encput sym) := by
  unfold Statement
  revert sym
  decide

theorem encflush : Statement .encflush := by unfold Statement; decide

theorem decinit : Statement .decinit := by unfold Statement; decide

theorem decget : Statement .decget := by unfold Statement; decide

theorem encode : Statement .encode := by unfold Statement; decide

theorem decode : Statement .decode := by unfold Statement; decide

theorem expand : Statement .expand := by unfold Statement; decide

theorem pack : Statement .pack := by unfold Statement; decide

theorem stcnt : Statement .stcnt := by unfold Statement; decide

theorem ldcnt : Statement .ldcnt := by unfold Statement; decide

end Sys2Proof.Laws.Encoding
end

