-- ==== Sys2Proof/Laws/Step.lean ====
section
/-! SUPPORT. Everything a step can do: which of the three events it is, and what each one answers. -/

namespace Sys2Proof.Machine

/-! ### The word and the command -/

theorem decodeWord_error_of_malformed (w : Word) (h : wordWellFormed w = false) :
    ∃ e, decodeWord w = .error e := by
  by_cases h1 : rsvdZero w = true
  · by_cases h2 : immAllowed w = true
    · have h3 : opDefined w = false := by simpa [wordWellFormed, h1, h2] using h
      refine ⟨.opcode, ?_⟩
      have hop : 0x0F < (opField w).toNat := by simpa [opDefined] using h3
      have : decodeOp (opField w) (immField w) = none := by
        unfold decodeOp
        split <;> first | omega | rfl
      simp [decodeWord, h1, h2, this]
    · exact ⟨.imm, by simp [decodeWord, h1, h2]⟩
  · exact ⟨.rsvd, by simp [decodeWord, h1]⟩

/-! ### The engine's turn -/

theorem engineTurn_idle (s : State) (h : s.latch = none) : engineTurn s = .next s := by
  simp [engineTurn, h]

theorem engineTurn_ok (s : State) (l : Latch) (i : Instr) (h : s.latch = some l) (hd : decodeWord l.word = .ok i) :
    engineTurn s = exec i s := by
  simp [engineTurn, h, hd]

theorem engineTurn_bad (s : State) (l : Latch) (e : BadWord) (h : s.latch = some l)
    (hd : decodeWord l.word = .error e) : engineTurn s = .next (badCommand l.word s) := by
  simp [engineTurn, h, hd]

/-- The engine idles, takes BAD_CMD, or runs the command its latched word spells. -/
theorem engineTurn_cases (s : State) :
    (s.latch = none ∧ engineTurn s = .next s) ∨
      (∃ l e, s.latch = some l ∧ decodeWord l.word = .error e ∧ engineTurn s = .next (badCommand l.word s)) ∨
      ∃ l i, s.latch = some l ∧ decodeWord l.word = .ok i ∧ engineTurn s = exec i s := by
  cases hl : s.latch with
  | none => exact .inl ⟨rfl, engineTurn_idle s hl⟩
  | some l =>
    cases hd : decodeWord l.word with
    | error e => exact .inr (.inl ⟨l, e, rfl, hd, engineTurn_bad s l e hl hd⟩)
    | ok i => exact .inr (.inr ⟨l, i, rfl, hd, engineTurn_ok s l i hl hd⟩)

/-! ### The host's turn -/

theorem hostAccess_read (w : Width) (off : Nat) (s : State) (h : permitted s.params.wmemSize w off = true) :
    hostAccess (.read w off) s = .next (hostRead w off s) := by
  simp [hostAccess, h]

theorem hostAccess_write (w : Width) (off : Nat) (v : Word) (s : State)
    (h : permitted s.params.wmemSize w off = true) :
    hostAccess (.write w off v) s = .next (hostWrite w off v s) := by
  simp [hostAccess, h]

/-- A host access never faults the model: it is performed, or refused under its own name. -/
theorem hostAccess_cases (a : Access) (s : State) :
    (∃ t, hostAccess a s = .next t) ∨ hostAccess a s = .refused (.hostAccess a) := by
  cases a <;> simp only [hostAccess] <;> split <;> simp

/-- Which fields a host read can change (45_control.md R218, R219; 20_memory.md R72). -/
theorem hostRead_frame (w : Width) (off : Nat) (s : State) :
    hostRead w off s =
      { s with
        accerr := (hostRead w off s).accerr
        rdata := (hostRead w off s).rdata
        draws := (hostRead w off s).draws } := by
  unfold hostRead
  simp only
  split <;> (try split) <;> rfl

/-- Which fields a host write can change (45_control.md R221). -/
theorem hostWrite_frame (w : Width) (off : Nat) (v : Word) (s : State) :
    hostWrite w off v s =
      { s with
        args := (hostWrite w off v s).args
        cmd := (hostWrite w off v s).cmd
        done := (hostWrite w off v s).done
        fault := (hostWrite w off v s).fault
        cmdovr := (hostWrite w off v s).cmdovr
        accerr := (hostWrite w off v s).accerr
        mode := (hostWrite w off v s).mode
        cumv := (hostWrite w off v s).cumv
        symv := (hostWrite w off v s).symv
        lutv := (hostWrite w off v s).lutv
        ie := (hostWrite w off v s).ie
        cnt := (hostWrite w off v s).cnt
        wmem := (hostWrite w off v s).wmem
        latch := (hostWrite w off v s).latch } := by
  unfold hostWrite
  split
  · rename_i r hr
    cases r <;> simp only [writeReg, writeCmd, writeArg] <;> (try split) <;> rfl
  all_goals (try simp only [writeCnt, writeReadOnly, writeWmem]) <;> (try split) <;> rfl

/-! ### The step -/

theorem step_engine (s : State) (h : s.inbox = []) : step s = engineTurn s := by
  rw [step, nextEvent_empty s h]
  rfl

theorem step_event (s : State) (e : Event) (rest : List Event) (h : s.inbox = e :: rest) :
    step s = stepEvent e { s with inbox := rest } := by
  rw [step, nextEvent_cons s e rest h]

/-- A step is a host access, the engine's turn, or a reset pulse, on the state with that event taken. -/
theorem step_cases (s : State) :
    ∃ u, { u with inbox := s.inbox } = s ∧
      ((∃ a, step s = hostAccess a u) ∨ step s = engineTurn u ∨ step s = .next (resetPulse u)) := by
  cases h : s.inbox with
  | nil => exact ⟨s, by rw [← h], .inr (.inl (step_engine s h))⟩
  | cons e rest =>
    refine ⟨{ s with inbox := rest }, by rw [← h], ?_⟩
    cases e with
    | access a => exact .inl ⟨a, step_event s _ rest h⟩
    | engine => exact .inr (.inl (step_event s _ rest h))
    | reset => exact .inr (.inr (step_event s _ rest h))

/-- The step after a placed command word is the engine's turn on it, accepted. -/
theorem step_withFetchWord (s : State) (w : Nat) (h : w < 2 ^ 32) :
    step (s.withFetchWord 32 w) = engineTurn (accept (BitVec.ofNat 32 w) s) := by
  have hp : s.withFetchWord 32 w = placeCommand (BitVec.ofNat 32 w) s := if_pos ⟨rfl, h⟩
  rw [hp]
  rfl

/-- A row of any other length places nothing (30_encoding.md R98). -/
theorem withFetchWord_other (s : State) (nbits w : Nat) (h : nbits ≠ 32) : s.withFetchWord nbits w = s := by
  simp [State.withFetchWord, placeTableWord, h]

end Sys2Proof.Machine
end

