-- ==== Sys2Proof/Laws/Tables.lean ====
section
/-! SUPPORT. What the table operations do, one lemma each. -/

namespace Sys2Proof.Machine

theorem entry_eq_getElem {α : Type} [Inhabited α] {n : Nat} (v : Vector α n) (i : Nat) (h : i < n) :
    entry v i = v[i] := by
  simp [entry, h]

theorem entry_of_size_le {α : Type} [Inhabited α] {n : Nat} (v : Vector α n) (i : Nat) (h : n ≤ i) :
    entry v i = default := by
  simp [entry, h]

/-- Two tables with the same entries are equal. -/
theorem table_ext {α : Type} [Inhabited α] {n : Nat} {v w : Vector α n} (h : ∀ i, i < n → entry v i = entry w i) :
    v = w := by
  ext i hi
  simpa [entry_eq_getElem, hi] using h i hi

@[simp] theorem entry_tabulate {α : Type} [Inhabited α] {n : Nat} (f : Nat → α) (i : Nat) (h : i < n) :
    entry (tabulate n f) i = f i := by
  rw [entry_eq_getElem _ _ h]
  simp [tabulate]

@[simp] theorem entry_tableOf {α : Type} [Inhabited α] {n : Nat} (l : List α) (hl : l.length = n) (i : Nat) :
    entry (tableOf l hl) i = (l[i]?).getD default := by
  subst hl
  simp [entry, tableOf]

@[simp] theorem toList_tableOf {α : Type} {n : Nat} (l : List α) (hl : l.length = n) : (tableOf l hl).toList = l := by
  simp [tableOf]

theorem toList_getElem? {α : Type} {n : Nat} (v : Vector α n) (i : Nat) : v.toList[i]? = v[i]? := by
  simp

@[simp] theorem entry_mapTable {α β : Type} [Inhabited α] [Inhabited β] {n : Nat} (f : α → β) (v : Vector α n)
    (i : Nat) (h : i < n) : entry (mapTable f v) i = f (entry v i) := by
  have hv : v[i]? = some (entry v i) := by rw [entry_eq_getElem _ _ h]; simp [h]
  simp only [mapTable, entry_tableOf, List.getElem?_map, Vector.getElem?_toList, hv]
  rfl

theorem entry_setEntry {α : Type} [Inhabited α] {n : Nat} (v : Vector α n) (i j : Nat) (x : α) (h : i < n) :
    entry (setEntry v i x) j = if j = i then x else entry v j := by
  unfold entry setEntry
  by_cases hj : j = i
  · subst hj; simp [h]
  · simp [hj, Ne.symm hj]

@[simp] theorem entry_setEntry_same {α : Type} [Inhabited α] {n : Nat} (v : Vector α n) (i : Nat) (x : α)
    (h : i < n) : entry (setEntry v i x) i = x := by
  simp [entry_setEntry, h]

theorem entry_setEntry_ne {α : Type} [Inhabited α] {n : Nat} (v : Vector α n) (i j : Nat) (x : α) (h : j ≠ i) :
    entry (setEntry v i x) j = entry v j := by
  simp [entry, setEntry, Ne.symm h]

/-- Interval i of a cumulative table runs from its entry i to its entry i + 1. -/
theorem intervals_getElem? {α : Type} [Inhabited α] {n : Nat} (v : Vector α (n + 1)) (i : Nat) (h : i < n) :
    (intervals v)[i]? = some (entry v i, entry v (i + 1)) := by
  have h1 : i < n + 1 := by omega
  have h2 : i + 1 < n + 1 := by omega
  simp [intervals, List.getElem?_zip_eq_some, entry, h1, h2]

end Sys2Proof.Machine
end

