-- ==== Sys2Proof/Tests/Slice0.lean ====
section
/-! SUPPORT. The model's own tests: the well-formedness smoke, every command's word written out from 30_encoding.md
R95, the vectors of 95_test_vectors.md one command at a time, and a witness for the hypotheses of each statement. -/

set_option Elab.async false

namespace Sys2Proof.Tests

open Sys2Proof.Machine Sys2Proof.Claims

/-! ### Helpers -/

/-- The next state of an outcome, `d` where there is none. -/
def nextOf (o : Host.Outcome State Fault Refusal) (d : State) : State :=
  match o with
  | .next t => t
  | .fault _ => d
  | .refused _ => d

/-- The outcome is a next state. -/
def isNext (o : Host.Outcome State Fault Refusal) : Bool :=
  match o with
  | .next _ => true
  | .fault _ => false
  | .refused _ => false

theorem eq_next {o : Host.Outcome State Fault Refusal} (d : State) (h : isNext o = true) : o = .next (nextOf o d) := by
  cases o <;> simp_all [isNext, nextOf]

/-- A WMEM whose draw is fixed to 0, as 95_test_vectors.md asks to reproduce its vectors. -/
def zeros : Memory := ⟨.fixed 0, []⟩

/-- A small block after reset: the least WMEM that R10 allows, its draw fixed to 0, and the given bit order. -/
def small (o : BitOrder) : State := { State.afterReset ⟨4096, o⟩ 0 with wmem := zeros }

/-- `s` with a command word latched on four operands. -/
def pend (w a0 a1 a2 a3 : Word) (s : State) : State := { s with latch := some ⟨w, ⟨a0, a1, a2, a3⟩⟩ }

/-- A CNT with the given leading entries, the rest 0. -/
def counts (cs : List Nat) : Vector Word 256 := tabulate 256 fun i => BitVec.ofNat 32 (cs.getD i 0)

/-- A CUM with the given leading entries, the rest the last one's value. -/
def cums (cs : List Nat) (rest : Nat) : Vector Word 257 := tabulate 257 fun i => BitVec.ofNat 32 (cs.getD i rest)

/-- The state after a command on the state it is pending in. -/
def ran (i : Instr) (s : State) : State := nextOf (exec i s) s

/-- ABRACADABRA in ASCII. -/
def abra : List Byte := [0x41, 0x42, 0x52, 0x41, 0x43, 0x41, 0x44, 0x41, 0x42, 0x52, 0x41]

/-- A block with ABRACADABRA at 0x100. -/
def abraIn : State := { small .lsbFirst with wmem := storeBytes zeros 0x100 abra }

/-- The values of the CUM of 42_rans_codec.md R159's example, from counts 3 and 1. -/
def cum31Nat : Vector Nat 257 := tabulate 257 fun i => if i = 0 then 0 else if i = 1 then 12288 else 16384

/-- That CUM as it is stored. -/
def cum31 : Vector Word 257 := storeCum cum31Nat

/-- A block whose model is that of counts 3 and 1, all tables built. -/
def model31 : State :=
  { small .lsbFirst with
    cnt := counts [3, 1]
    cum := cum31
    symtab := buildSymtab cum31
    lut := buildLut cum31
    total := 4
    cumv := true
    symv := true
    lutv := true }

/-- An encoder open on [0x700, 0x800). -/
def encOpen : State :=
  { model31 with mode := .enc, state := 0x00800000, wptr := 0x800, wend := 0x800, wlim := 0x700 }

/-- A decoder open on the bytes AB CD EF at 0x100 (42_rans_codec.md R159's example). -/
def decOpen : State :=
  { model31 with
    mode := .dec
    state := 0x00800000
    rptr := 0x100
    rlim := 0x103
    wmem := storeBytes zeros 0x100 [0xAB, 0xCD, 0xEF] }

/-! ### Well-formedness: an ill-formed word for each check (30_encoding.md R94) -/

theorem test_wf_opcode_refused : opDefined 0x00000010 = false ∧ wordWellFormed 0x00000010 = false := by decide

theorem test_wf_rsvd_refused : rsvdZero 0x00010000 = false ∧ wordWellFormed 0x00010000 = false := by decide

theorem test_wf_imm_refused : immAllowed 0x00004101 = false ∧ wordWellFormed 0x00004101 = false := by decide

theorem test_wf_encput_imm_allowed : wordWellFormed 0x0000FF06 = true := by decide

/-! ### Decoding: each word written out from 30_encoding.md R90 and R95 (RSVD 16 bits, IMM8, OP) -/

theorem test_decode_nop : decodeWord (0b0000000000000000#16 ++ 0b00000000#8 ++ 0b00000000#8 : Word) = .ok .nop ∧
    decodeTableWord 32 0x0 = some .nop := by decide

theorem test_decode_count : decodeWord (0b0000000000000000#16 ++ 0b00000000#8 ++ 0b00000001#8 : Word) = .ok .count ∧
    decodeTableWord 32 0x1 = some .count := by decide

theorem test_decode_norm : decodeWord (0b0000000000000000#16 ++ 0b00000000#8 ++ 0b00000010#8 : Word) = .ok .norm ∧
    decodeTableWord 32 0x2 = some .norm := by decide

theorem test_decode_symtab : decodeWord (0b0000000000000000#16 ++ 0b00000000#8 ++ 0b00000011#8 : Word) = .ok .symtab ∧
    decodeTableWord 32 0x3 = some .symtab := by decide

theorem test_decode_lutgen : decodeWord (0b0000000000000000#16 ++ 0b00000000#8 ++ 0b00000100#8 : Word) = .ok .lutgen ∧
    decodeTableWord 32 0x4 = some .lutgen := by decide

theorem test_decode_encinit : decodeWord (0b0000000000000000#16 ++ 0b00000000#8 ++ 0b00000101#8 : Word) = .ok .encinit ∧
    decodeTableWord 32 0x5 = some .encinit := by decide

theorem test_decode_encput : decodeWord (0b0000000000000000#16 ++ 0b01000001#8 ++ 0b00000110#8 : Word) = .ok (.encput 0x41) ∧
    decodeTableWord 32 0x4106 = some (.encput 0x41) := by decide

theorem test_decode_encflush : decodeWord (0b0000000000000000#16 ++ 0b00000000#8 ++ 0b00000111#8 : Word) = .ok .encflush ∧
    decodeTableWord 32 0x7 = some .encflush := by decide

theorem test_decode_decinit : decodeWord (0b0000000000000000#16 ++ 0b00000000#8 ++ 0b00001000#8 : Word) = .ok .decinit ∧
    decodeTableWord 32 0x8 = some .decinit := by decide

theorem test_decode_decget : decodeWord (0b0000000000000000#16 ++ 0b00000000#8 ++ 0b00001001#8 : Word) = .ok .decget ∧
    decodeTableWord 32 0x9 = some .decget := by decide

theorem test_decode_encode : decodeWord (0b0000000000000000#16 ++ 0b00000000#8 ++ 0b00001010#8 : Word) = .ok .encode ∧
    decodeTableWord 32 0xA = some .encode := by decide

theorem test_decode_decode : decodeWord (0b0000000000000000#16 ++ 0b00000000#8 ++ 0b00001011#8 : Word) = .ok .decode ∧
    decodeTableWord 32 0xB = some .decode := by decide

theorem test_decode_expand : decodeWord (0b0000000000000000#16 ++ 0b00000000#8 ++ 0b00001100#8 : Word) = .ok .expand ∧
    decodeTableWord 32 0xC = some .expand := by decide

theorem test_decode_pack : decodeWord (0b0000000000000000#16 ++ 0b00000000#8 ++ 0b00001101#8 : Word) = .ok .pack ∧
    decodeTableWord 32 0xD = some .pack := by decide

theorem test_decode_stcnt : decodeWord (0b0000000000000000#16 ++ 0b00000000#8 ++ 0b00001110#8 : Word) = .ok .stcnt ∧
    decodeTableWord 32 0xE = some .stcnt := by decide

theorem test_decode_ldcnt : decodeWord (0b0000000000000000#16 ++ 0b00000000#8 ++ 0b00001111#8 : Word) = .ok .ldcnt ∧
    decodeTableWord 32 0xF = some .ldcnt := by decide

theorem test_decode_rejects_by_name :
    decodeWord 0x00000010 = .error .opcode ∧ decodeWord 0x00000100 = .error .imm ∧
      decodeWord 0x00010000 = .error .rsvd ∧ decodeWord 0x000000FF = .error .opcode := by decide

/-- 30_encoding.md R98: one command length, one 32-bit word; a row of any other length spells nothing. -/
theorem test_decode_one_length :
    decodeTableWord 8 0x1 = none ∧ decodeTableWord 16 0x1 = none ∧ decodeTableWord 32 0x100000001 = none ∧
      ((small .lsbFirst).withFetchWord 16 0x1).latch = none := by decide

/-! ### One command at a time -/

/-- 45_control.md R210. -/
theorem test_nop_sets_done : (ran .nop (pend 0 0 0 0 0 (small .lsbFirst))).done = true := by decide +kernel

/-- 40_frequency_model.md R110's example (V-CNT1). -/
theorem test_count_abracadabra :
    let t := ran .count (pend 1 0x100 11 0 0 abraIn)
    entry t.cnt 0x41 = 5 ∧ entry t.cnt 0x42 = 2 ∧ entry t.cnt 0x43 = 1 ∧ entry t.cnt 0x52 = 2 ∧ entry t.cnt 0 = 0 := by
  decide +kernel

/-- V-CNT4: the range sum is exact. -/
theorem test_count_sum_does_not_wrap :
    (ran .count (pend 1 0xFFFFFFFF 2 0 0 abraIn)).fault = some .badAddr := by decide +kernel

/-- V-NRM5: the donor changes between two collisions. -/
theorem test_norm_donor_changes :
    let t := ran .norm (pend 2 0 0 0 0 { small .lsbFirst with cnt := counts [1, 1, 100000, 10] })
    (List.range 5).map (entry t.cum) = [0, 1, 2, 16383, 16384] ∧ entry t.cum 256 = 16384 ∧ t.total = 100012 := by
  decide +kernel

/-- V-NRM7: a tie between donors goes to the lower index, which precedes the recipient. -/
theorem test_norm_tie_takes_lower_index :
    let t := ran .norm (pend 2 0 0 0 0 { small .lsbFirst with cnt := counts [100000, 10, 1, 8] })
    (List.range 5).map (entry t.cum) = [0, 16380, 16381, 16382, 16384] := by
  decide +kernel

/-- The descriptor of ABRACADABRA's 'A' and that of R153's example. -/
theorem test_symtab_descriptors :
    let t := ran .symtab (pend 3 0 0 0 0 { small .lsbFirst with cum := cums [0, 4096, 4099] 16384, cumv := true })
    entry t.symtab 1 = ⟨0x00060000, 0xAAAAAAAB, 4096, 16381, 1⟩ ∧
      descriptor 0 7447 = ⟨0x3A2E0000, 0x8CCE1EBC, 0, 0x22E9, 12⟩ := by
  decide +kernel

/-- The fallback descriptors, f = 0 and f = 1 (41_symbol_tables.md R134). -/
theorem test_symtab_fallbacks :
    descriptor 5 0 = ⟨0, 0xFFFFFFFF, 0x4004, 0x4000, 0⟩ ∧ descriptor 16383 1 = ⟨0x00020000, 0xFFFFFFFF, 0x7FFE, 0x3FFF, 0⟩ := by
  decide

/-- 41_symbol_tables.md R138's example, at the ends of its two intervals. -/
theorem test_lutgen_interval_ends :
    slotOwner cum31 0 = 0 ∧ slotOwner cum31 12287 = 0 ∧ slotOwner cum31 12288 = 1 ∧ slotOwner cum31 16383 = 1 := by
  decide +kernel

/-- LUTGEN writes LUT and LUTV; the small slots keep the evaluation short. -/
theorem test_lutgen_writes_the_table :
    let t := ran .lutgen (pend 4 0 0 0 0 { small .lsbFirst with cum := cums [0, 2, 5] 16384, cumv := true })
    entry t.lut 1 = 0 ∧ entry t.lut 2 = 1 ∧ entry t.lut 5 = 2 ∧ t.lutv = true := by
  decide +kernel

/-- 42_rans_codec.md R150's example. -/
theorem test_encinit_example :
    let t := ran .encinit (pend 5 0x1000 0x800 0 0 model31)
    t.state = 0x00800000 ∧ t.wptr = 0x1000 ∧ t.wend = 0x1000 ∧ t.wlim = 0x800 ∧ t.mode = .enc := by
  decide +kernel

/-- 42_rans_codec.md R153, example 1: two bytes go down, then the state is updated. -/
theorem test_encput_two_bytes :
    let t := ran (.encput 1)
      (pend 0x106 0 0 0 0 { encOpen with symtab := buildSymtab (cums [0, 4096, 4099] 16384), state := 0x12345678 })
    t.state = 0x01845001 ∧ t.wptr = 0x7FE ∧ readByte t.wmem 0x7FF = 0x78 ∧ readByte t.wmem 0x7FE = 0x56 := by
  decide +kernel

/-- 42_rans_codec.md R151: a symbol without a slot faults. -/
theorem test_encput_zero_frequency :
    let t := ran (.encput 7) (pend 0x706 0 0 0 0 encOpen)
    t.fault = some .zeroFreq ∧ t.finfo = 7 ∧ t.fop = 0x06 ∧ t.mode = .idle := by
  decide +kernel

/-- 42_rans_codec.md R155: flushing with no put gives 00 00 80 00. -/
theorem test_encflush_initial_state :
    let t := ran .encflush (pend 7 0 0 0 0 encOpen)
    loadBytes t.wmem 0x7FC 4 = [0x00, 0x00, 0x80, 0x00] ∧ t.outlen = 4 ∧ t.wptr = 0x7FC ∧ t.mode = .idle := by
  decide +kernel

/-- 42_rans_codec.md R156: four little-endian bytes. -/
theorem test_decinit_reads_little_endian :
    let t := ran .decinit
      (pend 8 0xFFA 6 0 0 { model31 with wmem := storeBytes zeros 0xFFA [0x4B, 0x96, 0x81, 0x2B, 0x60, 0xBF] })
    t.state = 0x2B81964B ∧ t.rptr = 0xFFE ∧ t.rlim = 0x1000 ∧ t.mode = .dec := by
  decide +kernel

/-- 42_rans_codec.md R159, first example: one byte is consumed. -/
theorem test_decget_consumes_one_byte :
    let t := ran .decget (pend 9 0 0 0 0 decOpen)
    t.result = 0 ∧ t.state = 0x600000AB ∧ t.rptr = 0x101 := by
  decide +kernel

/-- 42_rans_codec.md R159, second example: the advanced value needs no byte. -/
theorem test_decget_advance :
    decAdvance cum31 1 0x7FFFFFFF = 0x1FFFFFFF ∧ decRenorm zeros 0 0x1FFFFFFF 0x100 = .ok (0x1FFFFFFF, 0x100) := by
  decide +kernel

/-- 43_block_codec.md R182's example. -/
theorem test_encode_abracadabra :
    let t := ran .encode (pend 0xA 0x100 11 0x1000 0x800 abraIn)
    loadBytes t.wmem 0xFFA 6 = [0x4B, 0x96, 0x81, 0x2B, 0x60, 0xBF] ∧ t.wptr = 0xFFA ∧ t.outlen = 6 ∧
      t.state = 0x2B81964B ∧ t.total = 11 ∧ statusWord t = 0x00003002 := by
  decide +kernel

/-- The DECODE of E5, with 3 copies of 0x41 in place of 10000: each DECGET leaves the state at LOWER. -/
theorem test_decode_single_symbol :
    let t := ran .decode (pend 0xB 0x100 4 0x800 0x100
      { small .lsbFirst with
        cnt := tally [0x41, 0x41, 0x41]
        wmem := storeBytes zeros 0x100 [0x00, 0x00, 0x80, 0x00] })
    loadBytes t.wmem 0x800 4 = [0x41, 0x41, 0x41, 0] ∧ t.outlen = 3 ∧ t.state = 0x00800000 ∧ t.rptr = t.rlim ∧
      t.result = 0x41 ∧ statusWord t = 0x00007202 := by
  decide +kernel

/-- 44_bit_packer.md R200's example, both bit orders. -/
theorem test_expand_both_orders :
    let t := fun o => ran .expand (pend 0xC 0 1 0x10 0 { small o with wmem := ⟨.fixed 0, [(0, 0x2D)]⟩ })
    loadBytes (t .lsbFirst).wmem 0x10 8 = [1, 0, 1, 1, 0, 1, 0, 0] ∧
      loadBytes (t .msbFirst).wmem 0x10 8 = [0, 0, 1, 0, 1, 1, 0, 1] ∧ (t .lsbFirst).outlen = 8 := by
  decide +kernel

/-- 44_bit_packer.md R201's example, both bit orders. -/
theorem test_pack_both_orders :
    let t := fun o => ran .pack (pend 0xD 0 10 0x20 0
      { small o with wmem := storeBytes zeros 0 [1, 0, 1, 1, 0, 0, 0, 0, 1, 1] })
    loadBytes (t .lsbFirst).wmem 0x20 2 = [0x0D, 0x03] ∧ loadBytes (t .msbFirst).wmem 0x20 2 = [0xB0, 0xC0] ∧
      (t .lsbFirst).outlen = 2 := by
  decide +kernel

/-- 44_bit_packer.md R201: the first symbol above 1 is reported. -/
theorem test_pack_bad_bit :
    let t := ran .pack (pend 0xD 0 10 0x20 0 { small .lsbFirst with wmem := ⟨.fixed 0, [(0, 1), (3, 2), (5, 9)]⟩ })
    t.fault = some .badBit ∧ t.finfo = 3 ∧ t.outlen = 0 := by
  decide +kernel

/-- V-SC1. -/
theorem test_stcnt_little_endian :
    let t := ran .stcnt (pend 0xE 0x300 2 0 0 { small .lsbFirst with cnt := counts [8192, 0] })
    loadBytes t.wmem 0x300 8 = [0x00, 0x20, 0, 0, 0, 0, 0, 0] ∧ t.outlen = 8 := by
  decide +kernel

/-- V-LC1: the entries not loaded become 0. -/
theorem test_ldcnt_zeroes_the_rest :
    let t := ran .ldcnt (pend 0xF 0 2 0 0
      { small .lsbFirst with cnt := counts [1, 2, 3], wmem := ⟨.fixed 0, [(1, 0x20)]⟩ })
    entry t.cnt 0 = 8192 ∧ entry t.cnt 1 = 0 ∧ entry t.cnt 2 = 0 ∧ statusWord t = 0x00000002 := by
  decide +kernel

/-! ### The host, the step, reset -/

/-- 45_control.md R211: a CMD write while a fault is recorded is dropped. -/
theorem test_cmd_write_dropped_after_fault :
    let t := writeCmd 1 { small .lsbFirst with fault := some .seq }
    t.cmdovr = true ∧ t.latch = none ∧ t.cmd = 0 := by
  decide

/-- 60_exceptions.md R264: FINFO is the whole word, FOP its low byte. -/
theorem test_bad_cmd_records_the_word :
    let t := nextOf (step ((small .lsbFirst).withFetchWord 32 0x00014110)) (small .lsbFirst)
    t.fault = some .badCmd ∧ t.finfo = 0x00014110 ∧ t.fop = 0x10 ∧ t.latch = none := by
  decide +kernel

/-- 20_memory.md R62: the word at +12 of a descriptor is (SHIFT << 16) | CMPL. -/
theorem test_descriptor_word_3 :
    descWord ⟨0, 0, 0, 0x3FFD, 1⟩ 3 = 0x00013FFD := by decide

/-- 10_state.md R24: the bytes of ID at offsets 0 to 3 are 53 4E 41 52. -/
theorem test_id_bytes : leBytes (regValue .id (small .lsbFirst)) 4 = [0x53, 0x4E, 0x41, 0x52] := by decide +kernel

/-- 20_memory.md R66, R67: widths and alignment. -/
theorem test_access_rules :
    permitted 4096 .w8 0x020 = false ∧ permitted 4096 .w32 0x402 = false ∧ permitted 4096 .w32 0xC00 = true ∧
      permitted 4096 .w16 0x4001 = false ∧ permitted 4096 .w16 0x10FFE = true ∧ permitted 4096 .w32 0x10FFC = true ∧
      permitted 4096 .w8 0x11000 = false := by
  decide

/-- 10_state.md R49: at reset a byte of WMEM is a draw; a write lists it, and leaves its neighbour one. -/
theorem test_wmem_draw_until_written :
    readByte State.reset.wmem 5 = (Config.freeValue 0 .wmem 5).setWidth 8 ∧
      readByte (writeByte State.reset.wmem 5 7) 5 = 7 ∧
      readByte (writeByte State.reset.wmem 5 7) 6 = (Config.freeValue 0 .wmem 6).setWidth 8 := ⟨rfl, rfl, rfl⟩

/-- 30_encoding.md R100, 45_control.md R212: without a WAIT the command stays pending, or runs where the schedule gives
the engine a turn. -/
theorem test_issue_without_wait :
    let p : List HostStmt := [.issue 0, .rd32 0x024]
    (nextOf (runProgram p (small .lsbFirst)) (small .lsbFirst)).rdata = some 1 ∧
      (nextOf (runProgramOn [false, true] p (small .lsbFirst)) (small .lsbFirst)).rdata = some 2 := by
  decide +kernel

/-- 48_container.md R232: the example layout admits n <= 196606; a region inside another is not admitted. -/
theorem test_example_layout :
    exampleLayout.admits (2 ^ 20) 196606 = true ∧ exampleLayout.admits (2 ^ 20) 196607 = false ∧
      ({ exampleLayout with t0 := 0x90000 } : PackLayout).admits (2 ^ 20) 5 = false := by decide

/-- 48_container.md R230: the shape of a packaged stream with empty parts. -/
theorem test_assemble_lengths :
    assemble 63 1 [9] [] [7, 8] = [63, 1, 1, 9, 0, 0, 0, 0, 2, 0, 0, 0, 7, 8] := by decide

/-! ### Witnesses: for each statement, a state and operands that meet its hypotheses together -/

/-- A latch of the four operands, with no word that matters. -/
def lat (a0 a1 a2 a3 : Word) : Latch := ⟨0, ⟨a0, a1, a2, a3⟩⟩

/-- `s` with that latch. -/
def held (a0 a1 a2 a3 : Word) (s : State) : State := pend 0 a0 a1 a2 a3 s

theorem held_latch (a0 a1 a2 a3 : Word) (s : State) : (held a0 a1 a2 a3 s).latch = some (lat a0 a1 a2 a3) := rfl

theorem witness_NopCompletesWithoutEffect : (held 0 0 0 0 model31).latch = some (lat 0 0 0 0) := rfl

/-- An empty buffer at the end of WMEM is in range, one byte there is not. -/
theorem witness_CountTalliesTheBuffer :
    (held 4096 0 0 0 abraIn).latch = some (lat 4096 0 0 0) ∧ 4096 + 0 ≤ abraIn.params.wmemSize ∧
      abraIn.params.wmemSize < 4096 + 1 := ⟨rfl, by decide, by decide⟩

/-- A sum of 0, a sum with no collision, one with a collision at symbol 0, and the largest sum. -/
theorem witness_NormMeetsItsPostconditions :
    countSum (counts []) 256 = 0 ∧ (0 < countSum (counts [3, 1]) 256 ∧ countSum (counts [3, 1]) 256 ≤ 0xFFFFFFFF) ∧
      (∀ i, i < 256 → entry (counts [3, 1]) i ≠ 0 →
        scaled (counts [3, 1]) i < scaled (counts [3, 1]) (i + 1)) ∧
      (scaled (counts [1, 100000]) 1 = 0 ∧ entry (scanned (counts [1, 100000])) 1 = 1) ∧
      countSum (counts [0xFFFFFFFF]) 256 = 0xFFFFFFFF := by
  refine ⟨by decide +kernel, by decide +kernel, ?_, by decide +kernel, by decide +kernel⟩
  intro i hi hne
  rcases i with _ | _ | i
  · decide +kernel
  · decide +kernel
  · exact absurd (by rw [counts, entry_tabulate _ _ hi]; rfl) hne

/-- The table of V-NRM4 before its repair, whose donor 0 precedes the recipient 2. -/
def donorBefore : Vector Nat 257 := tabulate 257 fun i => if i = 0 then 0 else if i = 1 then 16382 else if i ≤ 3 then 16383 else 16384

/-- The table of V-NRM3 before its repair, whose donor 1 follows the recipient 0. -/
def donorAfter : Vector Nat 257 := tabulate 257 fun i => if i ≤ 1 then 0 else 16384

theorem witness_StealMovesOneUnit :
    ((∀ i, i < 256 → entry donorBefore i ≤ entry donorBefore (i + 1)) ∧ 1 < width donorBefore 0 ∧
      width donorBefore 2 = 0) ∧
      (∀ i, i < 256 → entry donorAfter i ≤ entry donorAfter (i + 1)) ∧ 1 < width donorAfter 1 ∧
        width donorAfter 0 = 0 := by
  refine ⟨⟨?_, by decide +kernel, by decide +kernel⟩, ?_, by decide +kernel, by decide +kernel⟩ <;> intro i hi
  · rw [donorBefore, entry_tabulate _ _ (by omega), entry_tabulate _ _ (by omega)]
    split_ifs <;> first | omega | simp_all
  · rw [donorAfter, entry_tabulate _ _ (by omega), entry_tabulate _ _ (by omega)]
    split_ifs <;> omega

theorem witness_NormTotalOverflowFaults : 0xFFFFFFFF < countSum (counts [0xFFFFFFFF, 1]) 256 := by decide +kernel

theorem witness_StcntStoresCountsLittleEndian :
    (held 3072 256 0 0 model31).latch = some (lat 3072 256 0 0) ∧ 3072 + 4 * 256 ≤ model31.params.wmemSize ∧
      256 < 257 ∧ model31.params.wmemSize < 3073 + 4 * 256 := ⟨rfl, by decide, by decide, by decide⟩

theorem witness_LdcntLoadsCountsLittleEndian :
    (held 3072 256 0 0 model31).latch = some (lat 3072 256 0 0) ∧ 3072 + 4 * 256 ≤ model31.params.wmemSize ∧
      256 < 257 ∧ model31.params.wmemSize < 3073 + 4 * 256 := ⟨rfl, by decide, by decide, by decide⟩

theorem witness_SymtabBuildsDescriptors :
    (held 0 0 0 0 model31).cumv = true ∧ (∀ i, i < 256 → slotOk model31.cum i) ∧ freq model31.cum 1 = 4096 ∧
      freq model31.cum 2 = 0 := by
  refine ⟨rfl, ?_, by decide +kernel, by decide +kernel⟩
  intro i hi
  rcases i with _ | _ | i
  · decide +kernel
  · decide +kernel
  · have h : ∀ k, 2 ≤ k → k < 257 → entry model31.cum k = 16384 := by
      intro k hk hlt
      show entry (mapTable (BitVec.ofNat 32) cum31Nat) k = 16384
      rw [entry_mapTable _ _ _ hlt, cum31Nat, entry_tabulate _ _ hlt, if_neg (by omega), if_neg (by omega)]
      rfl
    have h1 := h (i + 2) (by omega) (by omega)
    have h2 := h (i + 3) (by omega) (by omega)
    simp [slotOk, startOf, freq, h1, h2]

theorem witness_SymtabRangeReportsFirstSymbol :
    ¬ slotOk (cums [0, 5, 16385] 16385) 1 ∧ slotOk (cums [0, 5, 16385] 16385) 0 := by decide +kernel

/-- An owned slot and, in a model that does not fill the scale, an unowned one; and CUMV of either value. -/
theorem witness_LutgenMapsEverySlot :
    (small .lsbFirst).cumv = false ∧ model31.cumv = true ∧ owns cum31 1 12288 ∧ ¬ owns cum31 0 12288 ∧
      (∀ i, i < 256 → ¬ owns (cums [] 0) i 0) := by
  refine ⟨rfl, rfl, by decide +kernel, by decide +kernel, ?_⟩
  intro i hi
  have h : entry (cums [] 0) (i + 1) = 0 := by rw [cums, entry_tabulate _ _ (by omega)]; rfl
  simp [owns, endOf, h]

theorem prefixSums_zeros (acc n : Nat) : prefixSums acc (List.replicate n 0) = List.replicate (n + 1) acc := by
  induction n with
  | zero => rfl
  | succ n ih => rw [List.replicate_succ, prefixSums, Nat.add_zero, ih]; rfl

theorem rescale31 : rescale (counts [3, 1]) 4 = cum31Nat := by
  have h : (counts [3, 1]).toList.map BitVec.toNat = 3 :: 1 :: List.replicate 254 0 := by decide +kernel
  have h' : cum31Nat.toList = 0 :: 12288 :: List.replicate 255 16384 := by decide +kernel
  apply Vector.toList_inj.1
  rw [h', rescale, toList_tableOf, h, prefixSums, prefixSums, prefixSums_zeros, List.map_cons, List.map_cons,
    List.map_replicate]
  rfl

theorem normalize31 : normalize (counts [3, 1]) = .ok cum31Nat := by
  have h : countedSymbols (counts [3, 1]) = [0, 1] := by decide +kernel
  have ht : rawTotal (counts [3, 1]) = 4 := by decide +kernel
  unfold Machine.normalize
  rw [ht, h, rescale31, if_neg (by decide), repairScan, if_neg (by decide +kernel), repairScan,
    if_neg (by decide +kernel), repairScan]

theorem model31_cumCoherent : model31.cumCoherent :=
  ⟨by decide +kernel, by decide +kernel, cum31Nat, normalize31, rfl⟩

theorem model31_tablesCoherent : model31.tablesCoherent := ⟨fun _ => model31_cumCoherent, fun _ => rfl, fun _ => rfl⟩

theorem witness_LutOwnersHaveCounts :
    model31.tablesCoherent ∧ model31.cumv = true ∧ model31.lutv = true ∧ model31.total ≠ 0 :=
  ⟨model31_tablesCoherent, rfl, rfl, by decide⟩

theorem witness_ReciprocalDividesExactly : (2 : Nat) ≤ 16384 ∧ (16384 : Nat) ≤ 16384 ∧ 2 ^ 31 - 1 < 2 ^ 31 := by decide

theorem witness_EncinitOpensTheEncoder :
    (small .lsbFirst).symv = false ∧ (held 4096 4096 0 0 model31).symv = true ∧
      (4096 : Nat) ≤ model31.params.wmemSize ∧ (4095 : Nat) < 4096 ∧ model31.params.wmemSize < 4097 :=
  ⟨rfl, rfl, by decide, by decide, by decide⟩

/-- No byte, one byte and two bytes. -/
theorem witness_EncputEmitsAndInserts :
    let thr := (entry encOpen.symtab 1).thr.toNat
    thr ≠ 0 ∧ encOpen.wlim.toNat ≤ encOpen.wptr.toNat ∧ encOpen.wptr.toNat ≤ encOpen.params.wmemSize ∧
      0x00800000 / 256 ^ 0 < thr ∧ (thr ≤ 0x7FFFFFFF / 256 ^ 0 ∧ 0x7FFFFFFF / 256 ^ 1 < thr) ∧
      2 ≤ encOpen.wptr.toNat - encOpen.wlim.toNat := by
  decide +kernel

theorem witness_EncputOutOfRoomFaults :
    let s := held 0 0 0 0 { encOpen with wlim := 0x800, state := 0x7FFFFFFF }
    s.mode = .enc ∧ (entry s.symtab 1).thr ≠ 0 ∧ s.wlim.toNat ≤ s.wptr.toNat ∧
      ∀ j, j ≤ s.wptr.toNat - s.wlim.toNat → (entry s.symtab 1).thr.toNat ≤ s.state.toNat / 256 ^ j := by
  decide +kernel

theorem witness_EncputIsExactAndBounded :
    let s := held 0 0 0 0 encOpen
    s.mode = .enc ∧ entry s.symtab 1 = descriptor 12288 4096 ∧ 12288 + 4096 ≤ 16384 ∧ 2 ^ 23 ≤ s.state.toNat ∧
      s.state.toNat < 2 ^ 31 ∧ s.wlim.toNat + 2 ≤ s.wptr.toNat ∧ s.wptr.toNat ≤ s.params.wmemSize := by
  decide +kernel

theorem witness_EncflushStoresTheState :
    model31.mode ≠ .enc ∧ encOpen.mode = .enc ∧ encOpen.wptr.toNat < (0x7FD : Word).toNat + 4 ∧
      (0x7FC : Word).toNat + 4 ≤ encOpen.wptr.toNat ∧ encOpen.wptr.toNat ≤ encOpen.params.wmemSize := by decide

theorem witness_DecinitReadsTheState :
    (small .lsbFirst).lutv = false ∧ (held 4092 4 0 0 model31).lutv = true ∧ model31.params.wmemSize < 4093 + 4 ∧
      4092 + 4 ≤ model31.params.wmemSize ∧ (4 : Nat) ≤ 4 ∧ 3 < 4 := ⟨rfl, rfl, by decide, by decide, by decide, by decide⟩

/-- One byte taken, at a slot its symbol owns. -/
theorem witness_DecgetDecodesOneSymbol :
    let s := held 0 0 0 0 decOpen
    s.mode = .dec ∧ entry s.cum 256 ≠ 0 ∧ s.rptr.toNat ≤ s.rlim.toNat ∧ s.rlim.toNat ≤ s.params.wmemSize ∧
      1 ≤ s.rlim.toNat - s.rptr.toNat ∧ 2 ^ 23 ≤ shiftIn s.wmem (advanced s (lookedUp s)) s.rptr.toNat 1 ∧
      shiftIn s.wmem (advanced s (lookedUp s)) s.rptr.toNat 0 < 2 ^ 23 ∧
      owns s.cum (lookedUp s).toNat (s.state.toNat % 2 ^ 14) := by
  decide +kernel

theorem witness_DecgetUnderrunFaults :
    let s := held 0 0 0 0 { decOpen with rlim := 0x100 }
    s.mode = .dec ∧ entry s.cum 256 ≠ 0 ∧ s.rptr.toNat ≤ s.rlim.toNat ∧ s.rlim.toNat ≤ s.params.wmemSize ∧
      ∀ j, j ≤ s.rlim.toNat - s.rptr.toNat → shiftIn s.wmem (advanced s (lookedUp s)) s.rptr.toNat j < 2 ^ 23 := by
  decide +kernel

/-- An encoder about to put symbol 1 from a state that takes one byte. -/
def putFrom : State := held 0 0 0 0 { encOpen with state := 0x7FFFFFFF }

/-- A decoder over the same model, on the bytes and the state that put left. -/
def getFrom : State :=
  held 0 0 0 0
    { model31 with
      mode := .dec
      state := (ran (.encput 1) putFrom).state
      rptr := (ran (.encput 1) putFrom).wptr
      rlim := 0x800
      wmem := (ran (.encput 1) putFrom).wmem }

theorem witness_DecgetInvertsEncput :
    exec (.encput 1) putFrom = .next (ran (.encput 1) putFrom) ∧ putFrom.tablesCoherent ∧ putFrom.cumv = true ∧
      putFrom.symv = true ∧ putFrom.mode = .enc ∧ putFrom.fault = none ∧ 2 ^ 23 ≤ putFrom.state.toNat ∧
      putFrom.state.toNat < 2 ^ 31 ∧ (ran (.encput 1) putFrom).fault = none ∧
      putFrom.wptr.toNat - (ran (.encput 1) putFrom).wptr.toNat = 1 ∧ getFrom.mode = .dec ∧
      getFrom.cum = putFrom.cum ∧ getFrom.lut = buildLut putFrom.cum ∧
      getFrom.rptr.toNat + (putFrom.wptr.toNat - (ran (.encput 1) putFrom).wptr.toNat) ≤ getFrom.rlim.toNat ∧
      getFrom.rlim.toNat ≤ getFrom.params.wmemSize ∧
      ∀ j, readByte getFrom.wmem (getFrom.rptr.toNat + j) =
        readByte (ran (.encput 1) putFrom).wmem ((ran (.encput 1) putFrom).wptr.toNat + j) :=
  ⟨eq_next _ (by decide +kernel), model31_tablesCoherent, rfl, rfl, rfl, rfl, by decide, by decide,
    by decide +kernel, by decide +kernel, rfl, rfl, rfl, by decide +kernel, by decide, fun _ => rfl⟩

/-- One state for each clause. -/
theorem witness_PutAndGetEntryFaults :
    model31.mode ≠ .enc ∧ (encOpen.mode = .enc ∧ (entry encOpen.symtab 2).thr = 0) ∧ model31.mode ≠ .dec ∧
      (decOpen.mode = .dec ∧ entry (cums [] 0) 256 = 0) := by
  decide +kernel

/-- An encode of ABRACADABRA with exactly the room that R187 asks for. -/
def encodeFrom : State := held 0x100 11 0xFFF (0xFFF - 26) abraIn

theorem witness_EncodeCompletesInBoundedRoom :
    encodeFrom.params.legal = true ∧ encodeOperandsOk encodeFrom (lat 0x100 11 0xFFF (0xFFF - 26)).ops ∧
      (0xFFF - 26 : Word).toNat + 2 * 11 + 4 ≤ 0xFFF := by
  decide +kernel

/-- An ENCODE without room and a DECODE without input. -/
theorem witness_CompositeFaultsKeepUnnamedState :
    (let s := held 0x100 11 0x800 0x800 abraIn
     exec .encode s = .next (ran .encode s) ∧ s.fault = none ∧ (ran .encode s).fault = some .outOverflow) ∧
      let s := held 0x100 3 0x800 16 { abraIn with cnt := counts [3, 1] }
      exec .decode s = .next (ran .decode s) ∧ s.fault = none ∧ (ran .decode s).fault = some .inUnderrun :=
  ⟨⟨eq_next _ (by decide +kernel), rfl, by decide +kernel⟩, eq_next _ (by decide +kernel), rfl, by decide +kernel⟩

theorem witness_EncodeRunsItsSteps :
    encodeFrom.fault = none ∧ encodeOperandsOk encodeFrom (lat 0x100 11 0xFFF (0xFFF - 26)).ops := by decide +kernel

/-- Operands in order, and a capacity below the symbol count. -/
theorem witness_DecodeRunsItsSteps :
    model31.fault = none ∧ decodeOperandsOk model31 (lat 0x100 6 0x106 3834).ops ∧
      decodeOperandsOk model31 (lat 0x100 6 0x106 3).ops ∧
      (completesAll [(.norm, (lat 0x100 6 0x106 3).ops), (.symtab, (lat 0x100 6 0x106 3).ops),
        (.lutgen, (lat 0x100 6 0x106 3).ops)] model31).map (fun u => u.total) = some 4 := by
  decide +kernel

/-- No symbols behind any state, and four symbols behind a state of LOWER with exactly 2 bytes for each. -/
theorem witness_DecodeCompletesOnLongStreams :
    (let s := small .lsbFirst
     s.params.legal = true ∧ decodeOperandsOk s (lat 0x100 4 0x104 0).ops ∧ countSum s.cnt 256 = 0) ∧
      let s := { model31 with wmem := ⟨.fixed 0, [(0x102, 0x80)]⟩ }
      s.params.legal = true ∧ decodeOperandsOk s (lat 0x100 12 0x10C 4).ops ∧ countSum s.cnt 256 = 4 ∧
        2 ^ 23 ≤ leValue (loadBytes s.wmem 0x100 4) := by
  decide +kernel

/-- A decode of the stream that `encodeFrom` leaves, to a buffer beside it. -/
def decodeFrom : State :=
  held (ran .encode encodeFrom).wptr (ran .encode encodeFrom).outlen 0x800 11
    { small .msbFirst with cnt := (ran .encode encodeFrom).cnt, wmem := (ran .encode encodeFrom).wmem }

theorem decodeFrom_wmem : decodeFrom.wmem = (ran .encode encodeFrom).wmem := by
  simp only [decodeFrom, held, pend]

theorem decodeFrom_cnt : decodeFrom.cnt = (ran .encode encodeFrom).cnt := by
  simp only [decodeFrom, held, pend]

theorem witness_DecodeInvertsEncode :
    exec .encode encodeFrom = .next (ran .encode encodeFrom) ∧ encodeFrom.params.legal = true ∧
      encodeFrom.fault = none ∧ (ran .encode encodeFrom).fault = none ∧ decodeFrom.params.legal = true ∧
      decodeFrom.cnt = (ran .encode encodeFrom).cnt ∧
      decodeOperandsOk decodeFrom
        (lat (ran .encode encodeFrom).wptr (ran .encode encodeFrom).outlen 0x800 11).ops ∧
      ∀ j, readByte decodeFrom.wmem ((ran .encode encodeFrom).wptr.toNat + j) =
        readByte (ran .encode encodeFrom).wmem ((ran .encode encodeFrom).wptr.toNat + j) :=
  ⟨eq_next _ (by decide +kernel), by decide +kernel, rfl, by decide +kernel, by decide +kernel, decodeFrom_cnt,
    by decide +kernel, fun _ => by rw [decodeFrom_wmem]⟩

/-- Out of range by one byte, overlapping by one byte, and side by side. -/
theorem witness_ExpandSpreadsTheBits :
    model31.params.wmemSize < 457 + 8 * 455 ∧ 0 + 455 ≤ model31.params.wmemSize ∧
      455 + 8 * 455 ≤ model31.params.wmemSize ∧ meets 0 455 454 (8 * 455) ∧ ¬ meets 0 455 455 (8 * 455) := by
  decide +kernel

theorem witness_PackGathersTheBits :
    let s := { model31 with wmem := ⟨.fixed 0, [(0, 1), (8, 2)]⟩ }
    s.params.wmemSize < 4095 + (9 + 7) / 8 ∧ 0 + 9 ≤ s.params.wmemSize ∧ 9 + (9 + 7) / 8 ≤ s.params.wmemSize ∧
      meets 0 9 8 ((9 + 7) / 8) ∧ ¬ meets 0 9 9 ((9 + 7) / 8) ∧ 1 < (readByte s.wmem (0 + 8)).toNat ∧
      ∀ i, i < 8 → (readByte s.wmem (0 + i)).toNat ≤ 1 := by
  decide +kernel

/-- EXPAND of one byte, and PACK of eight symbols; each followed by the other at a place beside it. -/
theorem witness_PackAndExpandAreInverse :
    (let s := held 0 1 8 0 { model31 with wmem := ⟨.fixed 0, [(0, 0x2D)]⟩ }
     exec .expand s = .next (ran .expand s) ∧ s.fault = none ∧ (ran .expand s).fault = none ∧
      16 + 1 ≤ s.params.wmemSize ∧ ¬ meets 8 (8 * 1) 16 1) ∧
      let s := held 0 8 8 0 { model31 with wmem := ⟨.fixed 0, [(0, 1), (2, 1)]⟩ }
      exec .pack s = .next (ran .pack s) ∧ s.fault = none ∧ (ran .pack s).fault = none ∧
        16 + 8 * 1 ≤ s.params.wmemSize ∧ ¬ meets 8 1 16 (8 * 1) :=
  ⟨⟨eq_next _ (by decide +kernel), rfl, by decide +kernel, by decide, by decide⟩,
    eq_next _ (by decide +kernel), rfl, by decide +kernel, by decide, by decide⟩

theorem witness_SequencingFaultsArePrecise :
    let s := held 0 0 0 0 (small .lsbFirst)
    (s.cumv = false ∧ s.symv = false ∧ s.lutv = false ∧ s.mode ≠ .enc ∧ s.mode ≠ .dec ∧ s.fault = none) ∧
      exec .ldcnt s = .next (ran .ldcnt s) := ⟨by decide, eq_next _ (by decide +kernel)⟩

/-- Each clause one step outside its range, on a WMEM of 4096 bytes. -/
theorem witness_AddressFaultsArePrecise :
    model31.params.wmemSize = 4096 ∧ model31.symv = true ∧ model31.lutv = true ∧ 4096 < 4096 + 1 ∧ 256 < 257 ∧
      4096 < 4093 + 4 * 1 ∧ 4096 < 3585 + 8 * 64 ∧ 4096 < 4095 + (9 + 7) / 8 := by
  decide

theorem witness_OverlapFaultsArePrecise :
    model31.params.wmemSize = 4096 ∧ meets 0x100 11 0x10A (0x10B - 0x10A) ∧ meets 0x100 6 0x105 1 ∧
      meets 8 1 1 (8 * 1) ∧ meets 0 9 8 ((9 + 7) / 8) := by
  decide

theorem witness_MalformedWordsFaultBadCmd :
    (0x0F < ((0x10 : Word).extractLsb' 0 8).toNat) ∧ (0x00010000 : Word).extractLsb' 16 16 ≠ 0 ∧
      ((0x00000101 : Word).extractLsb' 8 8 ≠ 0 ∧ (0x00000101 : Word).extractLsb' 0 8 ≠ 0x06) ∧
      (small .lsbFirst).inbox = [] ∧ ({ small .lsbFirst with inbox := [.engine, .reset] } : State).inbox = .engine :: [.reset] := by
  decide

/-- A precise and an abortive fault. -/
theorem witness_EveryFaultIsRecorded :
    (let s := held 0 0 0 0 (small .lsbFirst)
     exec .symtab s = .next (ran .symtab s) ∧ s.fault = none ∧ (ran .symtab s).fault = some .seq) ∧
      let s := held 0 0 0 0 encOpen
      exec (.encput 2) s = .next (ran (.encput 2) s) ∧ s.fault = none ∧
        (ran (.encput 2) s).fault = some .zeroFreq :=
  ⟨⟨eq_next _ (by decide +kernel), rfl, by decide +kernel⟩, eq_next _ (by decide +kernel), rfl, by decide +kernel⟩

/-- A command that completes and one that faults. -/
theorem witness_EveryCommandEndsTheHandshake :
    (let s := held 0 0 0 0 (small .lsbFirst)
     s.fault = none ∧ exec .nop s = .next (ran .nop s) ∧ (ran .nop s).fault = none) ∧
      let s := held 0 0 0 0 (small .lsbFirst)
      exec .decget s = .next (ran .decget s) ∧ (ran .decget s).fault = some .seq :=
  ⟨⟨rfl, eq_next _ (by decide +kernel), by decide +kernel⟩, eq_next _ (by decide +kernel), by decide +kernel⟩

theorem witness_CommandsNeverWriteHostState :
    exec .norm (held 0 0 0 0 model31) = .next (ran .norm (held 0 0 0 0 model31)) := eq_next _ (by decide +kernel)

theorem witness_TablesAndStateHaveFewWriters :
    exec .encinit (held 0x800 0x700 0 0 model31) = .next (ran .encinit (held 0x800 0x700 0 0 model31)) ∧
      (ran .encinit (held 0x800 0x700 0 0 model31)).mode = .enc :=
  ⟨eq_next _ (by decide +kernel), by decide +kernel⟩

/-- Busy, faulted, and neither. -/
theorem witness_CmdWriteIsAcceptedOrDropped :
    (held 0 0 0 0 (small .lsbFirst)).busy = true ∧ ({ small .lsbFirst with fault := some .seq } : State).fault ≠ none ∧
      (small .lsbFirst).busy = false ∧ (small .lsbFirst).fault = none := by
  decide

theorem witness_RegisterWritesStoreOrDrop :
    (small .lsbFirst).busy = false ∧ (held 0 0 0 0 (small .lsbFirst)).busy = true := by decide

/-- The last word of WMEM, idle and busy. -/
theorem witness_WmemWindowWriteStoresBytes :
    (small .lsbFirst).busy = false ∧ (held 0 0 0 0 (small .lsbFirst)).busy = true ∧
      4092 + widthBytes .w32 ≤ (small .lsbFirst).params.wmemSize ∧ 4092 % widthBytes .w32 = 0 := by
  decide

/-- The last half word of the LUT and the last byte of WMEM. -/
theorem witness_HostReadsReturnValues :
    (small .lsbFirst).busy = false ∧ (16382 + widthBytes .w16 ≤ 16384 ∧ 16382 % widthBytes .w16 = 0) ∧
      (4095 + widthBytes .w8 ≤ (small .lsbFirst).params.wmemSize ∧ 4095 % widthBytes .w8 = 0) := by
  decide

/-- A read-only register, the last word of each read-only window, and the first and last place of each gap. -/
theorem witness_ReservedAndReadOnlyAreInert :
    (small .lsbFirst).params.wmemSize = 4096 ∧ (small .lsbFirst).busy = false ∧ accessAllowed 4096 .w32 0x064 ∧
      accessAllowed 4096 .w32 0xC00 ∧ accessAllowed 4096 .w32 0x1FFC ∧ accessAllowed 4096 .w8 0x7FFF ∧
      accessAllowed 4096 .w32 0x018 ∧ accessAllowed 4096 .w32 0x3FC ∧ accessAllowed 4096 .w8 0xC04 ∧
      accessAllowed 4096 .w8 0x3FFF ∧ accessAllowed 4096 .w16 0xFFFE :=
  ⟨by decide, by decide, by decide, by decide, by decide, by decide, by decide, by decide, by decide, by decide, by decide⟩

theorem witness_AccessesAreRefusedByRule :
    accessAllowed 4096 .w16 0x10FFE ∧ ¬ accessAllowed 4096 .w8 0x020 ∧ ¬ accessAllowed 4096 .w16 0x10FFF ∧
      ¬ accessAllowed 4096 .w8 0x11000 :=
  ⟨by decide, by decide, by decide, by decide⟩

/-- The ends of the windows, an ARG and a coder register. -/
theorem witness_BusyWindowAccessesAreFlagged :
    (held 0 0 0 0 (small .lsbFirst)).busy = true ∧ accessAllowed 4096 .w32 0x400 ∧ accessAllowed 4096 .w32 0xC00 ∧
      accessAllowed 4096 .w8 0x4000 ∧ accessAllowed 4096 .w8 0x10000 ∧ accessAllowed 4096 .w32 0x03C ∧
      accessAllowed 4096 .w32 0x02C :=
  ⟨by decide, by decide, by decide, by decide, by decide, by decide, by decide⟩

theorem witness_BusyAccessNeverDisturbsTheCommand :
    let s := held 0 0 0 0 (small .lsbFirst)
    s.busy = true ∧ stepEvent (.access (.write .w32 0x400 7)) s = .next { s with accerr := true } ∧ s.handshakeOk :=
  ⟨rfl, rfl, fun _ => ⟨rfl, rfl⟩, fun _ => rfl⟩

/-- The engine's turn with an empty inbox, and as the oldest event. -/
theorem witness_StepRunsTheLatchedCommand :
    decodeWord (0x00004106 : Word) = .ok (.encput 0x41) ∧ (pend 0x00004106 0 0 0 0 encOpen).inbox = [] ∧
      ({ pend 0x00004106 0 0 0 0 encOpen with inbox := [.engine, .reset] } : State).inbox = .engine :: [.reset] := by
  decide

/-- A block with a NOP pending, all else as after reset. -/
def nopPending : State := pend 0 0 0 0 0 (small .lsbFirst)

theorem nopPending_inv : nopPending.Inv where
  params := by decide
  memory := by constructor <;> rfl
  tables := by refine ⟨?_, ?_, ?_⟩ <;> intro h <;> cases h
  modes := by refine ⟨?_, ?_, ?_, ?_⟩ <;> intro h <;> cases h
  encoder := by intro h; cases h
  decoder := by intro h; cases h
  handshake := by refine ⟨fun _ => ⟨rfl, rfl⟩, ?_⟩; intro h; cases h

theorem witness_StepKeepsMemoryCanonical :
    nopPending.memoryOk ∧ step nopPending = .next (nextOf (step nopPending) nopPending) :=
  ⟨nopPending_inv.memory, eq_next _ (by decide +kernel)⟩

theorem witness_StepKeepsTablesCoherent :
    model31.tablesCoherent ∧
      step (pend 2 0 0 0 0 model31) = .next (nextOf (step (pend 2 0 0 0 0 model31)) model31) :=
  ⟨model31_tablesCoherent, eq_next _ (by decide +kernel)⟩

/-- The encoder's and the decoder's clauses are met by open coders. -/
theorem witness_StepKeepsTheInvariant : nopPending.Inv ∧ encOpen.encoderBounds ∧ decOpen.decoderBounds := by
  refine ⟨nopPending_inv, fun _ => ?_, fun _ => ?_⟩ <;> decide

/-- A pending command with permitted host accesses still to come. -/
theorem witness_PendingCommandCompletes :
    let s := { nopPending with inbox := [.access (.read .w32 0x024), .access (.write .w32 0x028 1)] }
    s.Inv ∧ s.busy = true ∧ ∀ e ∈ s.inbox, eventAllowed s.params.wmemSize e := by
  refine ⟨⟨nopPending_inv.params, nopPending_inv.memory, nopPending_inv.tables, nopPending_inv.modes,
    nopPending_inv.encoder, nopPending_inv.decoder, nopPending_inv.handshake⟩, rfl, ?_⟩
  intro e he
  rcases List.mem_cons.1 he with rfl | he
  · show accessAllowed 4096 .w32 0x024
    decide
  · rcases List.mem_cons.1 he with rfl | he
    · show accessAllowed 4096 .w32 0x028
      decide
    · cases he

theorem witness_PackagedStreamLayout :
    (50 : Nat) < 256 ∧ (14 : Nat) < 256 ∧ ([1, 2] : List Byte).length < 256 ∧ ([] : List Byte).length < 2 ^ 32 := by
  decide

end Sys2Proof.Tests
end

section
/-! PROOF. Reset (10_state.md R49, 70_reset_and_hazards.md R290, R291): what the host reads right after it, and that
the model's own fields have no part in the reset values. -/

namespace Sys2Proof.Claims

open Sys2Proof.Machine

/-! ### What the host reads right after reset -/

@[simp] theorem statusWord_afterReset (p : Params) (n : Nat) : statusWord (State.afterReset p n) = 0 := by
  simp [statusWord, fcodeField, modeField, flagBit, State.busy, State.afterReset]

@[simp] theorem ctrlWord_afterReset (p : Params) (n : Nat) : ctrlWord (State.afterReset p n) = 0 := rfl

@[simp] theorem irq_afterReset (p : Params) (n : Nat) : irq (State.afterReset p n) = false := rfl

@[simp] theorem entry_cnt_afterReset (p : Params) (n i : Nat) (h : i < 256) :
    entry (State.afterReset p n).cnt i = 0 :=
  entry_tabulate _ i h

/-- Draw `n` stands only in CUM, SYMTAB, LUT and WMEM, which R49 leaves unspecified. -/
theorem resetValues_afterReset (p : Params) (n : Nat) : resetValues (State.afterReset p n) :=
  have hcnt : ∀ i, i < 256 → entry (State.afterReset p n).cnt i = 0 := entry_cnt_afterReset p n
  ⟨rfl, rfl, rfl, statusWord_afterReset p n, ctrlWord_afterReset p n, rfl, rfl, rfl, rfl, rfl, rfl, rfl, rfl, rfl, rfl,
    hcnt, rfl, irq_afterReset p n, rfl, rfl, rfl, rfl, rfl, rfl⟩

/-! ### The reset pulse -/

/-- The reset values say nothing of the model's own `inbox` and `rdata`. -/
theorem resetValues_setInbox_setRdata (s : State) (evs : List Event) (r : Option Word) :
    resetValues { s with inbox := evs, rdata := r } ↔ resetValues s :=
  Iff.rfl

@[simp] theorem resetPulse_params (s : State) : (resetPulse s).params = s.params := rfl

/-- R290: whatever the pulse interrupts, a pending command included, is gone. -/
theorem resetValues_resetPulse (s : State) : resetValues (resetPulse s) :=
  (resetValues_setInbox_setRdata _ s.inbox s.rdata).2 (resetValues_afterReset s.params s.draws)

theorem stepEvent_reset (s : State) : stepEvent .reset s = .next (resetPulse s) := rfl

/-- Settles O51: the state after reset has R49's values, and the pulse, which only adds the model's own fields to it,
leads there from every state. -/
theorem resetGivesTheStatedValues : Obligations.ResetGivesTheStatedValues :=
  ⟨resetValues_afterReset, fun s => ⟨resetPulse s, stepEvent_reset s, resetValues_resetPulse s, resetPulse_params s⟩⟩

end Sys2Proof.Claims
end

section
/-! PROOF. How every command ends, in the terms of the statements: from the rule it runs to the completed state
(45_control.md R212) or to the fault record (60_exceptions.md R268 to R270). -/

namespace Sys2Proof.Claims

open Sys2Proof.Machine

theorem recordFault_eq_faulted {s : State} {l : Latch} (h : s.latch = some l) (c : FaultCode) (info : Word) :
    recordFault c info s = faulted l c info s := by
  simp [recordFault, faulted, latchedOp, h, opField]

theorem exec_completes {i : Instr} {s u : State} {l : Latch} (h : s.latch = some l)
    (hr : ruleOf i l.ops s = .done u) : exec i s = .next (completed u) := by
  rw [exec_eq_runCommand, runCommand_done i _ s u l h hr]
  rfl

theorem exec_faults_precise {i : Instr} {s : State} {l : Latch} {c : FaultCode} {info : Word} (h : s.latch = some l)
    (hr : ruleOf i l.ops s = .raised c info) (hc : faultPrecise c = true) :
    exec i s = .next (faulted l c info s) := by
  rw [exec_eq_runCommand, runCommand_raised i _ s l c info h hr, takeFault_precise i c info l.ops s hc,
    recordFault_eq_faulted h]

theorem exec_faults_abortive {i : Instr} {s : State} {l : Latch} {c : FaultCode} {info : Word} (h : s.latch = some l)
    (hr : ruleOf i l.ops s = .raised c info) (hc : faultPrecise c = false) :
    exec i s = .next (aborted l c info (leaveUnspecified i c l.ops s)) := by
  obtain ⟨-, -, -, -, -, -, -, -, -, -, -, hlatch, -, -, hdraws⟩ := leaveUnspecified_frame i c l.ops s
  rw [exec_eq_runCommand, runCommand_raised i _ s l c info h hr, takeFault_abortive i c info l.ops s hc]
  simp [recordFault, latchedOp, opField, aborted, faulted, hlatch, h, hdraws]

end Sys2Proof.Claims
end

section
/-! PROOF. The counts of a table and their sums (40_frequency_model.md R112). -/

namespace Sys2Proof.Claims

open Sys2Proof.Machine

@[simp] theorem countSum_zero (cnt : Vector Word 256) : countSum cnt 0 = 0 := rfl

theorem countSum_succ (cnt : Vector Word 256) {n : Nat} (h : n < 256) :
    countSum cnt (n + 1) = countSum cnt n + (entry cnt n).toNat := by
  simp [countSum, List.take_add_one, entry_eq_getElem cnt n h, h]

theorem countSum_eq_sum_range (cnt : Vector Word 256) {n : Nat} (h : n ≤ 256) :
    countSum cnt n = ∑ i ∈ Finset.range n, (entry cnt i).toNat := by
  induction n with
  | zero => rfl
  | succ n ih => rw [countSum_succ cnt h, ih (by omega), Finset.sum_range_succ]

/-- The model's total and the statements' are one. -/
theorem rawTotal_eq_countSum (cnt : Vector Word 256) : rawTotal cnt = countSum cnt 256 := by
  rw [rawTotal, countSum, List.take_of_length_le (by simp)]

end Sys2Proof.Claims
end

section
/-! PROOF. COUNT (40_frequency_model.md R110): the tally is the number of occurrences, and the occurrences of all byte
values add up to the length. No count wraps, because a length is a 32-bit operand. -/

namespace Sys2Proof.Claims

open Sys2Proof.Machine

theorem countRule_badAddr {s : State} {src len : Nat} (h : s.params.wmemSize < src + len) :
    countRule src len s = .raised .badAddr 0 := by
  simp [countRule, inRange, h]

theorem countRule_done {s : State} {src len : Nat} (h : src + len ≤ s.params.wmemSize) :
    countRule src len s = .done { dropTables s with cnt := tally (loadBytes s.wmem src len) } := by
  simp [countRule, inRange, h]

theorem entry_countSymbol (cnt : Vector Word 256) (x v : Byte) :
    entry (countSymbol cnt x) v.toNat = entry cnt v.toNat + if x = v then 1 else 0 := by
  rw [countSymbol, entry_setEntry _ _ _ _ x.isLt]
  by_cases hx : x = v
  · simp [hx]
  · have : v.toNat ≠ x.toNat := fun hv => hx (BitVec.eq_of_toNat_eq hv.symm)
    simp [hx, this]

theorem entry_foldl_countSymbol (bs : List Byte) (cnt : Vector Word 256) (v : Byte) :
    entry (bs.foldl countSymbol cnt) v.toNat = entry cnt v.toNat + BitVec.ofNat 32 (bs.count v) := by
  induction bs generalizing cnt with
  | nil => simp
  | cons x rest ih =>
    rw [List.foldl_cons, ih, entry_countSymbol, List.count_cons, BitVec.ofNat_add]
    by_cases hx : x = v <;> simp [hx, add_assoc, add_comm, add_left_comm]

theorem toNat_entry_tally (bs : List Byte) (h : bs.length < 2 ^ 32) (v : Byte) :
    (entry (tally bs) v.toNat).toNat = bs.count v := by
  rw [tally, entry_foldl_countSymbol, entry_tabulate _ _ v.isLt]
  simpa using Nat.lt_of_le_of_lt List.count_le_length h

/-- Every byte of a list is one of the 256 byte values. -/
theorem sum_count_eq_length (bs : List Byte) :
    ∑ i ∈ Finset.range 256, bs.count (BitVec.ofNat 8 i) = bs.length := by
  induction bs with
  | nil => simp
  | cons x rest ih =>
    have hx : ∀ i ∈ Finset.range 256, (x == BitVec.ofNat 8 i) = decide (x.toNat = i) := by
      intro i hi
      have := Finset.mem_range.1 hi
      rw [Bool.eq_iff_iff, beq_iff_eq, decide_eq_true_eq]
      bv_omega
    have hone : ∑ i ∈ Finset.range 256, (if x == BitVec.ofNat 8 i then 1 else 0) = 1 := by
      rw [Finset.sum_congr rfl fun i hi => by rw [hx i hi]]
      simpa using x.isLt
    simp only [List.count_cons, Finset.sum_add_distrib, ih, hone, List.length_cons]

theorem countSum_tally (bs : List Byte) (h : bs.length < 2 ^ 32) : countSum (tally bs) 256 = bs.length := by
  rw [countSum_eq_sum_range _ (le_refl _), ← sum_count_eq_length bs]
  refine Finset.sum_congr rfl fun i hi => ?_
  have hi : (BitVec.ofNat 8 i).toNat = i := by simpa using Finset.mem_range.1 hi
  rw [← toNat_entry_tally bs h, hi]

/-- Settles O2: BAD_ADDR beyond the range, and otherwise the tally with its entries and their sum. -/
theorem countTalliesTheBuffer : Obligations.CountTalliesTheBuffer := by
  intro s l hl
  have hlen : (loadBytes s.wmem l.ops.a0.toNat l.ops.a1.toNat).length < 2 ^ 32 := by simpa using l.ops.a1.isLt
  refine ⟨fun h => exec_faults_precise hl (countRule_badAddr h) rfl, fun h =>
    ⟨_, exec_completes hl (countRule_done h), rfl, toNat_entry_tally _ hlen, ?_⟩⟩
  exact (countSum_tally _ hlen).trans (loadBytes_length ..)

end Sys2Proof.Claims
end

section
/-! PROOF. STCNT and LDCNT (40_frequency_model.md R121, R122): counts as little-endian words in WMEM. -/

namespace Sys2Proof.Claims

open Sys2Proof.Machine

/-! ### Little-endian bytes -/

/-- A list of blocks of `w` items each: item `j` of block `i` stands at `w * i + j`. -/
theorem flatMap_getElem?_of_length {α β : Type} {w : Nat} {f : α → List β} (hf : ∀ x, (f x).length = w) (l : List α)
    (i j : Nat) (hj : j < w) : (l.flatMap f)[w * i + j]? = (l[i]?).bind fun x => (f x)[j]? := by
  induction l generalizing i with
  | nil => simp
  | cons x rest ih =>
    cases i with
    | zero => simp [List.getElem?_append_left, hf, hj]
    | succ i =>
      have hlen : (f x).length ≤ w * (i + 1) + j := by rw [hf, Nat.mul_succ]; omega
      have hidx : w * (i + 1) + j - w = w * i + j := by rw [Nat.mul_succ]; omega
      rw [List.flatMap_cons, List.getElem?_append_right hlen, hf, hidx, ih, List.getElem?_cons_succ]

theorem leValue_lt (bs : List Byte) : leValue bs < 256 ^ bs.length := by
  induction bs with
  | nil => simp [leValue]
  | cons b rest ih =>
    have := b.isLt
    rw [leValue, List.length_cons, Nat.pow_succ]
    omega

/-- Byte `j` of a little-endian value. -/
theorem leValue_div_mod (bs : List Byte) (j : Nat) : leValue bs / 256 ^ j % 256 = (bs.getD j 0).toNat := by
  induction bs generalizing j with
  | nil => simp [leValue]
  | cons b rest ih =>
    have := b.isLt
    cases j with
    | zero => simp [leValue]; omega
    | succ j =>
      have hb : (b.toNat + 256 * leValue rest) / 256 = leValue rest := by omega
      rw [leValue, Nat.pow_succ', ← Nat.div_div_eq_div_mul, hb, ih, List.getD_cons_succ]

/-- A word read from WMEM holds the bytes in order, lowest address in the lowest bits. -/
theorem extractLsb'_memRead32 (m : Memory) (a j : Nat) (h : j < 4) :
    (memRead32 m a).extractLsb' (8 * j) 8 = readByte m (a + j) := by
  have hlt : leValue (loadBytes m a 4) < 2 ^ 32 := by simpa using leValue_lt (loadBytes m a 4)
  have hbyte : (loadBytes m a 4).getD j 0 = readByte m (a + j) := by
    rw [List.getD_eq_getElem?_getD, loadBytes_getElem? m a 4 j h, Option.getD_some]
  apply BitVec.eq_of_toNat_eq
  rw [memRead32, BitVec.extractLsb'_toNat, BitVec.toNat_ofNat, Nat.mod_eq_of_lt hlt, Nat.shiftRight_eq_div_pow,
    Nat.pow_mul, leValue_div_mod, hbyte]

/-! ### STCNT -/

/-- The bytes STCNT stores for its first `k` counts. -/
def countBytes (cnt : Vector Word 256) (k : Nat) : List Byte :=
  (List.range k).flatMap fun i => leBytes (entry cnt i) 4

@[simp] theorem countBytes_length (cnt : Vector Word 256) (k : Nat) : (countBytes cnt k).length = 4 * k := by
  simp [countBytes, Nat.mul_comm]

theorem countBytes_getD (cnt : Vector Word 256) {k i j : Nat} (hi : i < k) (hj : j < 4) :
    (countBytes cnt k).getD (4 * i + j) 0 = (entry cnt i).extractLsb' (8 * j) 8 := by
  rw [← leBytes_getD _ 4 j 0 hj, List.getD_eq_getElem?_getD, List.getD_eq_getElem?_getD, countBytes,
    flatMap_getElem?_of_length (fun i => leBytes_length (entry cnt i) 4) _ i j hj]
  simp [hi]

theorem stcntRule_badAddr {s : State} {dst k : Nat} (h : 256 < k ∨ s.params.wmemSize < dst + 4 * k) :
    stcntRule dst k s = .raised .badAddr 0 := by
  by_cases hk : 256 < k
  · simp [stcntRule, entriesOk, hk]
  · simp [stcntRule, inRange, h.resolve_left hk]

theorem stcntRule_done {s : State} {dst k : Nat} (hk : k ≤ 256) (h : dst + 4 * k ≤ s.params.wmemSize) :
    stcntRule dst k s = .done { s with
      wmem := storeBytes s.wmem dst (countBytes s.cnt k), outlen := BitVec.ofNat 32 (4 * k) } := by
  simp [stcntRule, entriesOk, inRange, hk, h, countBytes]

/-- Settles O7: byte `j` of count `i` is byte `4 * i + j` of the store. -/
theorem stcntStoresCountsLittleEndian : Obligations.StcntStoresCountsLittleEndian := by
  intro s l hl
  refine ⟨fun h => exec_faults_precise hl (stcntRule_badAddr h) rfl, fun hk h =>
    ⟨_, exec_completes hl (stcntRule_done hk h), rfl, fun i j hi hj => ?_, fun a ha => ?_⟩⟩
  · have hin : l.ops.a0.toNat + 4 * i + j - l.ops.a0.toNat = 4 * i + j := by omega
    rw [← countBytes_getD s.cnt hi hj, ← hin]
    exact (readByte_storeBytes ..).trans (if_pos (by rw [countBytes_length]; omega))
  · exact readByte_storeBytes_outside _ _ _ _ (by rwa [countBytes_length])

/-! ### LDCNT -/

theorem ldcntRule_badAddr {s : State} {src k : Nat} (h : 256 < k ∨ s.params.wmemSize < src + 4 * k) :
    ldcntRule src k s = .raised .badAddr 0 := by
  by_cases hk : 256 < k
  · simp [ldcntRule, entriesOk, hk]
  · simp [ldcntRule, inRange, h.resolve_left hk]

/-- The CNT that LDCNT loads. -/
def loadedCounts (m : Memory) (src k : Nat) : Vector Word 256 :=
  tabulate 256 fun i => if i < k then memRead32 m (src + 4 * i) else 0

theorem ldcntRule_done {s : State} {src k : Nat} (hk : k ≤ 256) (h : src + 4 * k ≤ s.params.wmemSize) :
    ldcntRule src k s = .done { dropTables s with cnt := loadedCounts s.wmem src k } := by
  simp [ldcntRule, entriesOk, inRange, hk, h, loadedCounts]

theorem entry_loadedCounts (m : Memory) (src k : Nat) {i : Nat} (h : i < 256) :
    entry (loadedCounts m src k) i = if i < k then memRead32 m (src + 4 * i) else 0 :=
  entry_tabulate _ i h

/-- Settles O8: entry `i` is the word read at `src + 4 * i`, whose bytes are those of WMEM. -/
theorem ldcntLoadsCountsLittleEndian : Obligations.LdcntLoadsCountsLittleEndian := by
  intro s l hl
  refine ⟨fun h => exec_faults_precise hl (ldcntRule_badAddr h) rfl, fun hk h =>
    ⟨_, exec_completes hl (ldcntRule_done hk h), rfl, fun i j hi hj => ?_, fun i hki hi => ?_⟩⟩
  · show (entry (loadedCounts s.wmem l.ops.a0.toNat l.ops.a1.toNat) i).extractLsb' (8 * j) 8 = _
    rw [entry_loadedCounts _ _ _ (by omega), if_pos hi, extractLsb'_memRead32 _ _ _ hj]
  · exact (entry_loadedCounts _ _ _ hi).trans (if_neg (by omega))

end Sys2Proof.Claims
end

section
/-! PROOF. The donor and the steal (40_frequency_model.md R115, R116), in terms of the widths of the table. -/

namespace Sys2Proof.Claims

open Sys2Proof.Machine

/-! ### Tables as lists over their indices -/

theorem toList_eq_map_entry {α : Type} [Inhabited α] {n : Nat} (v : Vector α n) :
    v.toList = (List.range n).map (entry v) := by
  refine List.ext_getElem (by simp) fun i hi _ => ?_
  have hi : i < n := by simpa using hi
  simp [entry_eq_getElem v i hi]

theorem zipIdx_map_range {α : Type} (f : Nat → α) (n : Nat) :
    ((List.range n).map f).zipIdx = (List.range n).map fun i => (f i, i) :=
  List.ext_getElem (by simp) fun i _ _ => by simp

theorem widths_eq_map_width (cum : Vector Nat 257) : widths cum = (List.range 256).map (width cum) := by
  refine List.ext_getElem (by simp [widths, intervals]) fun i _ hi => ?_
  have hi : i < 256 := by simpa using hi
  obtain ⟨_, hp⟩ := List.getElem?_eq_some_iff.1 (intervals_getElem? cum i hi)
  simp [widths, width, hp]

/-! ### The donor search -/

/-- The donor search after its first `n` comparisons. -/
def bestBelow (cum : Vector Nat 257) (n : Nat) : Option (Nat × Nat) :=
  (List.range n).foldl (fun best j => betterDonor best (width cum j) j) none

theorem bestBelow_succ (cum : Vector Nat 257) (n : Nat) :
    bestBelow cum (n + 1) = betterDonor (bestBelow cum n) (width cum n) n := by
  simp [bestBelow, List.range_succ]

theorem donor_eq_bestBelow (cum : Vector Nat 257) : donor cum = (bestBelow cum 256).map Prod.fst := by
  rw [donor, widths_eq_map_width, zipIdx_map_range, List.foldl_map, bestBelow]

/-- `best` is the lowest index below `n` of the smallest width greater than 1, with that width. -/
def IsBestBelow (cum : Vector Nat 257) (n : Nat) (best : Option (Nat × Nat)) : Prop :=
  match best with
  | none => ∀ j, j < n → width cum j ≤ 1
  | some (b, w) =>
    b < n ∧ w = width cum b ∧ 1 < w ∧ ∀ j, j < n → 1 < width cum j → w ≤ width cum j ∧ (width cum j = w → b ≤ j)

theorem isBestBelow_betterDonor {cum : Vector Nat 257} {n : Nat} {best : Option (Nat × Nat)}
    (h : IsBestBelow cum n best) : IsBestBelow cum (n + 1) (betterDonor best (width cum n) n) := by
  cases best with
  | none =>
    have hlow : ∀ j, j < n → width cum j ≤ 1 := h
    by_cases hw : 1 < width cum n
    · rw [betterDonor, if_pos hw]
      refine ⟨by omega, rfl, hw, fun j hj hwj => ?_⟩
      obtain hj | rfl := Nat.lt_succ_iff_lt_or_eq.1 hj
      · exact absurd (hlow j hj) (by omega)
      · exact ⟨le_refl _, fun _ => le_refl _⟩
    · rw [betterDonor, if_neg hw]
      intro j hj
      obtain hj | rfl := Nat.lt_succ_iff_lt_or_eq.1 hj
      · exact hlow j hj
      · omega
  | some p =>
    obtain ⟨b, w⟩ := p
    obtain ⟨hb, hwb, hw, hmin⟩ := h
    by_cases hlt : 1 < width cum n ∧ width cum n < w
    · rw [betterDonor, if_pos hlt]
      refine ⟨by omega, rfl, hlt.1, fun j hj hwj => ?_⟩
      obtain hj | rfl := Nat.lt_succ_iff_lt_or_eq.1 hj
      · have := hmin j hj hwj; omega
      · exact ⟨le_refl _, fun _ => le_refl _⟩
    · rw [betterDonor, if_neg hlt]
      refine ⟨by omega, hwb, hw, fun j hj hwj => ?_⟩
      obtain hj | rfl := Nat.lt_succ_iff_lt_or_eq.1 hj
      · exact hmin j hj hwj
      · omega

theorem isBestBelow_of_bestBelow_eq {cum : Vector Nat 257} {n : Nat} {best : Option (Nat × Nat)}
    (h : bestBelow cum n = best) : IsBestBelow cum n best := by
  induction n generalizing best with
  | zero =>
    subst h
    intro j hj
    omega
  | succ n ih =>
    rw [bestBelow_succ] at h
    exact h ▸ isBestBelow_betterDonor (ih rfl)

theorem donor_eq_none {cum : Vector Nat 257} (h : donor cum = none) : ∀ j, j < 256 → width cum j ≤ 1 := by
  rw [donor_eq_bestBelow, Option.map_eq_none_iff] at h
  exact isBestBelow_of_bestBelow_eq h

theorem donor_eq_some {cum : Vector Nat 257} {d : Nat} (h : donor cum = some d) :
    d < 256 ∧ 1 < width cum d ∧
      ∀ j, j < 256 → 1 < width cum j → width cum d ≤ width cum j ∧ (width cum j = width cum d → d ≤ j) := by
  rw [donor_eq_bestBelow, Option.map_eq_some_iff] at h
  obtain ⟨⟨b, w⟩, hbest, rfl⟩ := h
  obtain ⟨hlt, rfl, hw, hmin⟩ := isBestBelow_of_bestBelow_eq hbest
  exact ⟨hlt, hw, hmin⟩

/-! ### The steal -/

/-- The entries of a cumulative table do not decrease. -/
def Rising (cum : Vector Nat 257) : Prop := ∀ i, i < 256 → entry cum i ≤ entry cum (i + 1)

theorem Rising.entry_le {cum : Vector Nat 257} (h : Rising cum) {i j : Nat} (hij : i ≤ j) (hj : j ≤ 256) :
    entry cum i ≤ entry cum j := by
  induction j, hij using Nat.le_induction with
  | base => exact le_refl _
  | succ j _ ih => exact (ih (by omega)).trans (h j (by omega))

theorem entry_steal (cum : Vector Nat 257) (d r : Nat) {k : Nat} (h : k ≤ 256) :
    entry (steal cum d r) k = stolenEntry d r k (entry cum k) := by
  have hk : k < 257 := by omega
  simp [steal, hk, entry_eq_getElem cum k hk]

theorem entry_steal_zero (cum : Vector Nat 257) (d r : Nat) : entry (steal cum d r) 0 = entry cum 0 := by
  simp [entry_steal, stolenEntry]

theorem entry_steal_last (cum : Vector Nat 257) {d r : Nat} (hd : d < 256) (hr : r < 256) :
    entry (steal cum d r) 256 = entry cum 256 := by
  have h1 : ¬ 256 < r + 1 := by omega
  have h2 : ¬ 256 < d + 1 := by omega
  simp [entry_steal, stolenEntry, h1, h2]

/-- The entries from the donor's end on are not 0, so that taking 1 from one takes 1 from it. -/
theorem Rising.entry_pos_of_donor {cum : Vector Nat 257} (h : Rising cum) {d k : Nat} (hw : 1 < width cum d)
    (hdk : d + 1 ≤ k) (hk : k ≤ 256) : 1 < entry cum k := by
  have := h.entry_le hdk hk
  unfold width at hw
  omega

theorem width_steal {cum : Vector Nat 257} (h : Rising cum) {d r : Nat} (hw : 1 < width cum d)
    (hr0 : width cum r = 0) {j : Nat} (hj : j < 256) :
    width (steal cum d r) j = if j = d then width cum d - 1 else if j = r then 1 else width cum j := by
  have hdr : d ≠ r := by rintro rfl; omega
  have hpos : d + 1 ≤ j → 1 < entry cum j := fun hdj => h.entry_pos_of_donor hw hdj (by omega)
  have hup := h j hj
  unfold width at *
  rw [entry_steal _ _ _ (by omega), entry_steal _ _ _ (by omega)]
  obtain hlt | hgt := Nat.lt_or_gt_of_ne hdr
  · simp only [stolenEntry, if_pos hlt]
    split_ifs <;> grind
  · simp only [stolenEntry, if_neg (Nat.lt_asymm hgt)]
    split_ifs <;> grind

theorem Rising.after_steal {cum : Vector Nat 257} (h : Rising cum) {d r : Nat} (hw : 1 < width cum d) :
    Rising (steal cum d r) := by
  intro i hi
  have hup := h i hi
  have hstep : i = d → entry cum i + 1 < entry cum (i + 1) := by rintro rfl; unfold width at hw; omega
  rw [entry_steal _ _ _ (by omega), entry_steal _ _ _ (by omega)]
  simp only [stolenEntry]
  grind

/-- Settles O5: `width_steal` at the donor, at the recipient and anywhere else. -/
theorem stealMovesOneUnit : Obligations.StealMovesOneUnit := by
  intro cum d r hd hr hrise hw hr0
  have hdr : r ≠ d := by rintro rfl; omega
  have hwidth := @width_steal cum hrise d r hw hr0
  refine ⟨by rw [hwidth hd, if_pos rfl], by rw [hwidth hr, if_neg hdr, if_pos rfl], fun j hj hjd hjr => ?_,
    entry_steal_zero cum d r, entry_steal_last cum hd hr⟩
  rw [hwidth hj, if_neg hjd, if_neg hjr]

end Sys2Proof.Claims
end

section
/-! PROOF. NORM (40_frequency_model.md R112 to R119): the rescale is a table that rises from 0 to SCALE, each repair
keeps it one, and such a table always has a donor. -/

namespace Sys2Proof.Claims

open Sys2Proof.Machine

/-! ### A total that does not fit -/

theorem normRule_overflow {s : State} (h : 0xFFFFFFFF < countSum s.cnt 256) :
    normRule s = .raised .totalOverflow (BitVec.ofNat 32 (countSum s.cnt 256)) := by
  rw [normRule, rawTotal_eq_countSum, if_pos h]

/-- Settles O6: TOTAL_OVERFLOW is abortive, and R269's row for NORM names only the validity bits. -/
theorem normTotalOverflowFaults : Obligations.NormTotalOverflowFaults := by
  intro s l hl h
  exact exec_faults_abortive hl (normRule_overflow h) rfl

/-! ### The rescale -/

theorem prefixSums_getElem? (acc : Nat) (cs : List Nat) (i : Nat) (h : i ≤ cs.length) :
    (prefixSums acc cs)[i]? = some (acc + (cs.take i).sum) := by
  induction cs generalizing acc i with
  | nil =>
    obtain rfl : i = 0 := by simpa using h
    rfl
  | cons c rest ih =>
    cases i with
    | zero => rfl
    | succ i =>
      rw [prefixSums, List.getElem?_cons_succ, ih _ _ (by simpa using h), List.take_succ_cons, List.sum_cons,
        Nat.add_assoc]

theorem rescale_eq_tabulate_scaled (cnt : Vector Word 256) :
    rescale cnt (countSum cnt 256) = tabulate 257 (scaled cnt) := by
  refine table_ext fun i hi => ?_
  have hp := prefixSums_getElem? 0 (cnt.toList.map BitVec.toNat) i (by simp; omega)
  rw [← List.map_take, Nat.zero_add, ← countSum] at hp
  rw [entry_tabulate _ _ hi, rescale, entry_tableOf, List.getElem?_map, hp]
  rfl

theorem scaled_zero (cnt : Vector Word 256) : scaled cnt 0 = 0 := by simp [scaled]

theorem scaled_last {cnt : Vector Word 256} (h : 0 < countSum cnt 256) : scaled cnt 256 = 16384 :=
  Nat.mul_div_cancel _ h

theorem scaled_le_succ (cnt : Vector Word 256) {i : Nat} (h : i < 256) : scaled cnt i ≤ scaled cnt (i + 1) := by
  rw [scaled, scaled, countSum_succ cnt h]
  exact Nat.div_le_div_right (Nat.mul_le_mul_left _ (Nat.le_add_right ..))

theorem scaled_succ_of_count_zero {cnt : Vector Word 256} {i : Nat} (h : i < 256) (h0 : entry cnt i = 0) :
    scaled cnt (i + 1) = scaled cnt i := by
  simp [scaled, countSum_succ cnt h, h0]

/-! ### A normal table -/

/-- A cumulative table that rises from 0 to SCALE: what the rescale makes and each steal keeps. -/
structure NormalTable (cum : Vector Nat 257) : Prop where
  first : entry cum 0 = 0
  last : entry cum 256 = 16384
  rising : Rising cum

theorem normalTable_scaled {cnt : Vector Word 256} (h : 0 < countSum cnt 256) :
    NormalTable (tabulate 257 (scaled cnt)) where
  first := by rw [entry_tabulate _ _ (by omega), scaled_zero]
  last := by rw [entry_tabulate _ _ (by omega), scaled_last h]
  rising i hi := by
    rw [entry_tabulate _ _ (by omega), entry_tabulate _ _ (by omega)]
    exact scaled_le_succ cnt hi

theorem NormalTable.after_steal {cum : Vector Nat 257} (h : NormalTable cum) {d r : Nat} (hd : d < 256) (hr : r < 256)
    (hw : 1 < width cum d) : NormalTable (steal cum d r) where
  first := (entry_steal_zero cum d r).trans h.first
  last := (entry_steal_last cum hd hr).trans h.last
  rising := h.rising.after_steal hw

theorem NormalTable.sum_width {cum : Vector Nat 257} (h : NormalTable cum) {n : Nat} (hn : n ≤ 256) :
    ((List.range n).map (width cum)).sum = entry cum n := by
  induction n with
  | zero => exact h.first.symm
  | succ n ih =>
    have := h.rising n (by omega)
    rw [List.range_succ, List.map_append, List.sum_append, ih (by omega), List.map_singleton, List.sum_singleton, width]
    omega

/-- NO_DONOR is never raised (R117): 256 widths of at most 1 do not add up to SCALE. -/
theorem NormalTable.exists_donor {cum : Vector Nat 257} (h : NormalTable cum) : ∃ d, donor cum = some d := by
  refine Option.ne_none_iff_exists'.1 fun hnone => ?_
  have hle : ∀ w ∈ (List.range 256).map (width cum), w ≤ 1 := by
    simpa using donor_eq_none hnone
  have hsum := List.sum_le_card_nsmul _ 1 hle
  rw [h.sum_width (le_refl _), h.last] at hsum
  simp at hsum

theorem NormalTable.entry_le_scale {cum : Vector Nat 257} (h : NormalTable cum) {i : Nat} (hi : i ≤ 256) :
    entry cum i ≤ 16384 :=
  h.last ▸ h.rising.entry_le hi (le_refl _)

theorem NormalTable.toNat_entry_storeCum {cum : Vector Nat 257} (h : NormalTable cum) {i : Nat} (hi : i ≤ 256) :
    (entry (storeCum cum) i).toNat = entry cum i := by
  have := h.entry_le_scale hi
  rw [storeCum, entry_mapTable _ _ _ (by omega), BitVec.toNat_ofNat, Nat.mod_eq_of_lt (by omega)]

/-! ### One visit of the scan -/

theorem repairStep_of_not_collision {cnt : Vector Word 256} {cum : Vector Nat 257} {i : Nat}
    (h : ¬ (entry cnt i ≠ 0 ∧ entry cum (i + 1) = entry cum i)) : repairStep cnt cum i = cum :=
  if_neg h

theorem repairStep_of_collision {cnt : Vector Word 256} {cum : Vector Nat 257} {i d : Nat}
    (h : entry cnt i ≠ 0 ∧ entry cum (i + 1) = entry cum i) (hd : donor cum = some d) :
    repairStep cnt cum i = steal cum d i := by
  rw [repairStep, if_pos h, hd]

theorem NormalTable.after_repairStep {cum : Vector Nat 257} (h : NormalTable cum) (cnt : Vector Word 256) {i : Nat}
    (hi : i < 256) : NormalTable (repairStep cnt cum i) := by
  by_cases hc : entry cnt i ≠ 0 ∧ entry cum (i + 1) = entry cum i
  · obtain ⟨d, hdonor⟩ := h.exists_donor
    obtain ⟨hd, hw, -⟩ := donor_eq_some hdonor
    rw [repairStep_of_collision hc hdonor]
    exact h.after_steal hd hi hw
  · rwa [repairStep_of_not_collision hc]

/-- Of the widths that are 0, a visit makes positive only the one of a counted symbol it visits; none becomes 0. -/
theorem NormalTable.width_repairStep_pos_iff {cum : Vector Nat 257} (h : NormalTable cum) (cnt : Vector Word 256)
    {i j : Nat} (hi : i < 256) (hj : j < 256) :
    0 < width (repairStep cnt cum i) j ↔ 0 < width cum j ∨ (j = i ∧ entry cnt i ≠ 0) := by
  by_cases hc : entry cnt i ≠ 0 ∧ entry cum (i + 1) = entry cum i
  · obtain ⟨d, hdonor⟩ := h.exists_donor
    obtain ⟨-, hw, -⟩ := donor_eq_some hdonor
    have hi0 : width cum i = 0 := by rw [width, hc.2, Nat.sub_self]
    rw [repairStep_of_collision hc hdonor, width_steal h.rising hw hi0 hj]
    by_cases hjd : j = d
    · subst hjd
      rw [if_pos rfl]
      omega
    · by_cases hji : j = i
      · rw [if_neg hjd, if_pos hji]
        exact iff_of_true Nat.one_pos (.inr ⟨hji, hc.1⟩)
      · simp [hjd, hji]
  · rw [repairStep_of_not_collision hc]
    refine ⟨.inl, fun hor => hor.elim id ?_⟩
    rintro ⟨rfl, hcount⟩
    have hne : entry cum (j + 1) ≠ entry cum j := fun he => hc ⟨hcount, he⟩
    have := h.rising j hi
    unfold width
    omega

/-! ### The scan -/

/-- The scan of R114 over the symbols below `n`. -/
def scannedBelow (cnt : Vector Word 256) (n : Nat) : Vector Nat 257 :=
  (List.range n).foldl (repairStep cnt) (tabulate 257 (scaled cnt))

theorem scannedBelow_succ (cnt : Vector Word 256) (n : Nat) :
    scannedBelow cnt (n + 1) = repairStep cnt (scannedBelow cnt n) n := by
  simp [scannedBelow, List.range_succ]

theorem scanned_eq_scannedBelow (cnt : Vector Word 256) : scanned cnt = scannedBelow cnt 256 := rfl

theorem normalTable_scannedBelow {cnt : Vector Word 256} (h : 0 < countSum cnt 256) {n : Nat} (hn : n ≤ 256) :
    NormalTable (scannedBelow cnt n) := by
  induction n with
  | zero => exact normalTable_scaled h
  | succ n ih => exact scannedBelow_succ cnt n ▸ (ih (by omega)).after_repairStep cnt hn

/-- After the visits below `n`, the widths are positive where the rescale's were and at the counted symbols below
`n`. -/
theorem width_scannedBelow_pos_iff {cnt : Vector Word 256} (h : 0 < countSum cnt 256) {n j : Nat} (hn : n ≤ 256)
    (hj : j < 256) :
    0 < width (scannedBelow cnt n) j ↔ scaled cnt j < scaled cnt (j + 1) ∨ (j < n ∧ entry cnt j ≠ 0) := by
  induction n with
  | zero =>
    rw [scannedBelow, List.range_zero, List.foldl_nil, width, entry_tabulate _ _ (by omega),
      entry_tabulate _ _ (by omega)]
    omega
  | succ n ih =>
    rw [scannedBelow_succ, (normalTable_scannedBelow h (by omega)).width_repairStep_pos_iff cnt hn hj, ih (by omega),
      Nat.lt_succ_iff_lt_or_eq]
    by_cases hjn : j = n
    · simp [hjn]
    · simp [hjn]

theorem normalTable_scanned {cnt : Vector Word 256} (h : 0 < countSum cnt 256) : NormalTable (scanned cnt) :=
  normalTable_scannedBelow h (le_refl _)

/-- The widths after the scan are positive exactly at the counted symbols (R119): the rescale gives none to a symbol
that is not counted. -/
theorem width_scanned_pos_iff {cnt : Vector Word 256} (h : 0 < countSum cnt 256) {j : Nat} (hj : j < 256) :
    0 < width (scanned cnt) j ↔ entry cnt j ≠ 0 := by
  rw [scanned_eq_scannedBelow, width_scannedBelow_pos_iff h (le_refl _) hj]
  by_cases h0 : entry cnt j = 0
  · simp [h0, scaled_succ_of_count_zero hj h0]
  · exact iff_of_true (.inr ⟨hj, h0⟩) h0

/-- Where no counted symbol collides the scan changes nothing. -/
theorem scanned_eq_scaled {cnt : Vector Word 256}
    (h : ∀ i, i < 256 → entry cnt i ≠ 0 → scaled cnt i < scaled cnt (i + 1)) :
    scanned cnt = tabulate 257 (scaled cnt) := by
  refine List.foldl_fixed' (fun i => repairStep_of_not_collision fun hc => ?_) _
  by_cases hi : i < 256
  · have hlt := h i hi hc.1
    rw [entry_tabulate _ _ (by omega), entry_tabulate _ _ (by omega)] at hc
    omega
  · exact hc.1 (entry_of_size_le cnt i (by omega))

/-! ### The model's scan is the rule's -/

theorem countedSymbols_eq_filter (cnt : Vector Word 256) :
    countedSymbols cnt = (List.range 256).filter fun i => decide (entry cnt i ≠ 0) := by
  rw [countedSymbols, toList_eq_map_entry, zipIdx_map_range, List.filter_map, List.map_map]
  exact List.map_id _

/-- On a normal table the model's scan of counted symbols never fails, and visits them by R114. -/
theorem repairScan_eq_foldl {cnt : Vector Word 256} {todo : List Nat} {cum : Vector Nat 257} (h : NormalTable cum)
    (htodo : ∀ i ∈ todo, i < 256 ∧ entry cnt i ≠ 0) :
    repairScan todo cum = .ok (todo.foldl (repairStep cnt) cum) := by
  induction todo generalizing cum with
  | nil => rfl
  | cons i rest ih =>
    obtain ⟨⟨hi, hcount⟩, hrest⟩ := List.forall_mem_cons.1 htodo
    rw [List.foldl_cons, ← ih (h.after_repairStep cnt hi) hrest, repairScan]
    by_cases hc : entry cum (i + 1) = entry cum i
    · obtain ⟨d, hd⟩ := h.exists_donor
      rw [if_pos hc, hd, repairStep_of_collision ⟨hcount, hc⟩ hd]
    · rw [if_neg hc, repairStep_of_not_collision fun h => hc h.2]

/-- Leaving out the symbols that are not counted leaves out visits that change nothing. -/
theorem foldl_countedSymbols (cnt : Vector Word 256) (cum : Vector Nat 257) :
    (countedSymbols cnt).foldl (repairStep cnt) cum = (List.range 256).foldl (repairStep cnt) cum := by
  rw [countedSymbols_eq_filter, List.foldl_filter]
  congr 1
  funext c i
  by_cases hi : entry cnt i = 0
  · rw [if_neg (by simpa using hi), repairStep_of_not_collision fun hc => hc.1 hi]
  · rw [if_pos (by simpa using hi)]

theorem normalize_of_total_zero {cnt : Vector Word 256} (h : countSum cnt 256 = 0) :
    normalize cnt = .ok (tabulate 257 fun _ => 0) := by
  rw [Machine.normalize, rawTotal_eq_countSum, if_pos h]

theorem normalize_eq_scanned {cnt : Vector Word 256} (h : 0 < countSum cnt 256) :
    normalize cnt = .ok (scanned cnt) := by
  have hcounted : ∀ i ∈ countedSymbols cnt, i < 256 ∧ entry cnt i ≠ 0 := by
    simp [countedSymbols_eq_filter]
  rw [Machine.normalize, rawTotal_eq_countSum, if_neg (Nat.ne_of_gt h), rescale_eq_tabulate_scaled,
    repairScan_eq_foldl (normalTable_scaled h) hcounted, foldl_countedSymbols, scanned]

/-! ### NORM completes -/

/-- CUM after NORM, before it is stored. -/
def normalized (cnt : Vector Word 256) : Vector Nat 257 :=
  if countSum cnt 256 = 0 then tabulate 257 fun _ => 0 else scanned cnt

theorem normalize_eq_ok (cnt : Vector Word 256) : normalize cnt = .ok (normalized cnt) := by
  by_cases h : countSum cnt 256 = 0
  · rw [normalize_of_total_zero h, normalized, if_pos h]
  · rw [normalize_eq_scanned (Nat.pos_of_ne_zero h), normalized, if_neg h]

theorem normRule_done {s : State} (h : countSum s.cnt 256 ≤ 0xFFFFFFFF) :
    normRule s = .done { dropTables s with
      cum := storeCum (normalized s.cnt)
      total := BitVec.ofNat 32 (countSum s.cnt 256)
      cumv := true } := by
  rw [normRule, rawTotal_eq_countSum, if_neg (Nat.not_lt.2 h), normalize_eq_ok]

/-- What R119 asks of the stored table, and which table it is. -/
theorem storeCum_scanned_postconditions {cnt : Vector Word 256} (h : 0 < countSum cnt 256) :
    let cum := storeCum (scanned cnt)
    entry cum 0 = 0 ∧ (entry cum 256).toNat = 16384 ∧
      (∀ i, i < 256 → startOf cum i ≤ endOf cum i) ∧
      (∀ i, i < 256 → (entry cnt i ≠ 0 ↔ startOf cum i < endOf cum i)) ∧
      ((List.range 256).map fun i => endOf cum i - startOf cum i).sum = 16384 ∧
      (∀ i, i ≤ 256 → (entry cum i).toNat = entry (scanned cnt) i) := by
  have hn := normalTable_scanned h
  have hstart : ∀ i, i < 256 → startOf (storeCum (scanned cnt)) i = entry (scanned cnt) i :=
    fun i hi => hn.toNat_entry_storeCum (by omega)
  have hend : ∀ i, i < 256 → endOf (storeCum (scanned cnt)) i = entry (scanned cnt) (i + 1) :=
    fun i hi => hn.toNat_entry_storeCum (by omega)
  refine ⟨BitVec.eq_of_toNat_eq ?_, ?_, fun i hi => ?_, fun i hi => ?_, ?_, fun i hi => hn.toNat_entry_storeCum hi⟩
  · exact (hn.toNat_entry_storeCum (by omega)).trans hn.first
  · exact (hn.toNat_entry_storeCum (by omega)).trans hn.last
  · rw [hstart i hi, hend i hi]
    exact hn.rising i hi
  · rw [hstart i hi, hend i hi, ← width_scanned_pos_iff h hi, width, Nat.sub_pos_iff_lt]
  · rw [← hn.last, ← hn.sum_width (le_refl _)]
    refine congrArg List.sum (List.map_congr_left fun i hi => ?_)
    have hi := List.mem_range.1 hi
    rw [hstart i hi, hend i hi, width]

/-- Settles O3: the scan of the rescaled table always finds a donor, so NORM completes with it; R119 then follows from
the invariant `NormalTable` and from which widths the scan makes positive. -/
theorem normMeetsItsPostconditions : Obligations.NormMeetsItsPostconditions := by
  intro s l hl hfits
  refine ⟨_, exec_completes hl (normRule_done hfits), rfl, ?_, fun h0 i hi => ?_, fun hpos => ?_⟩
  · show (BitVec.ofNat 32 (countSum s.cnt 256)).toNat = _
    rw [BitVec.toNat_ofNat, Nat.mod_eq_of_lt (by omega)]
  · show entry (storeCum (normalized s.cnt)) i = 0
    rw [normalized, if_pos h0, storeCum, entry_mapTable _ _ _ (by omega), entry_tabulate _ _ (by omega)]
    rfl
  · have hcum : normalized s.cnt = scanned s.cnt := if_neg (by omega)
    simp only [completed, hcum]
    obtain ⟨h0, hlast, hle, hcounted, hsum, htable⟩ := storeCum_scanned_postconditions hpos
    refine ⟨h0, hlast, hle, hcounted, hsum, htable, fun hnc i hi => ?_⟩
    rw [htable i hi, scanned_eq_scaled hnc, entry_tabulate _ _ (by omega)]

end Sys2Proof.Claims
end

section
/-! PROOF. The reciprocal and the stored shift of a descriptor (41_symbol_tables.md R134, R135, R137). -/

namespace Sys2Proof.Claims

open Sys2Proof.Machine

/-! ### The shift -/

/-- R135's shift is the ceiling logarithm. -/
theorem leastShift_eq_clog {f : Nat} (h : f ≤ 16384) : leastShift f = Nat.clog 2 f := by
  have hmem : Nat.clog 2 f ∈ List.range 15 := by
    have : Nat.clog 2 f ≤ 14 := Nat.clog_le_of_le_pow (h.trans (by decide))
    exact List.mem_range.2 (by omega)
  have hmin : ∀ n, n < Nat.clog 2 f → (!decide (f ≤ 2 ^ n)) = true := fun n hn => by
    simpa using (Nat.lt_clog_iff_pow_lt one_lt_two).1 hn
  have hfind : (List.range 15).find? (fun n => decide (f ≤ 2 ^ n)) = some (Nat.clog 2 f) :=
    List.find?_range_eq_some.2 ⟨decide_eq_true (Nat.le_pow_clog one_lt_two f), hmem, hmin⟩
  rw [leastShift, hfind, Option.getD_some]

theorem leastShift_pos {f : Nat} (h2 : 2 ≤ f) (h : f ≤ 16384) : 1 ≤ leastShift f :=
  leastShift_eq_clog h ▸ Nat.clog_pos one_lt_two h2

theorem leastShift_le {f : Nat} (h : f ≤ 16384) : leastShift f ≤ 14 :=
  leastShift_eq_clog h ▸ Nat.clog_le_of_le_pow (h.trans (by decide))

theorem le_two_pow_leastShift {f : Nat} (h : f ≤ 16384) : f ≤ 2 ^ leastShift f :=
  leastShift_eq_clog h ▸ Nat.le_pow_clog one_lt_two f

theorem leastShift_le_of_le_two_pow {f n : Nat} (h : f ≤ 16384) (hn : f ≤ 2 ^ n) : leastShift f ≤ n :=
  leastShift_eq_clog h ▸ Nat.clog_le_of_le_pow hn

/-- One power of two less does not reach `f`. -/
theorem two_pow_pred_leastShift_lt {f : Nat} (h2 : 2 ≤ f) (h : f ≤ 16384) : 2 ^ (leastShift f - 1) < f :=
  leastShift_eq_clog h ▸ Nat.pow_pred_clog_lt_self one_lt_two h2

/-! ### The reciprocal -/

theorem reciprocalOf_small {f : Nat} (h : f < 2) : reciprocalOf f = 0xFFFFFFFF := if_pos h

theorem storedShiftOf_small {f : Nat} (h : f < 2) : storedShiftOf f = 0 := if_pos h

theorem reciprocalOf_large {f : Nat} (h : 2 ≤ f) :
    reciprocalOf f = (2 ^ (leastShift f + 31) + (f - 1)) / f := if_neg (Nat.not_lt.2 h)

theorem storedShiftOf_large {f : Nat} (h : 2 ≤ f) : storedShiftOf f = leastShift f - 1 := if_neg (Nat.not_lt.2 h)

/-- RCP fits in 32 bits (R135): `2 ^ (sh + 31)` is at most `2 ^ 32 * (f - 1)`. -/
theorem reciprocalOf_lt {f : Nat} (h : f ≤ 16384) : reciprocalOf f < 2 ^ 32 := by
  obtain hlt | h2 := Nat.lt_or_ge f 2
  · rw [reciprocalOf_small hlt]
    decide
  · have hpow : 2 ^ (leastShift f - 1) * 2 = 2 ^ leastShift f := Nat.two_pow_pred_mul_two (leastShift_pos h2 h)
    have hpred := two_pow_pred_leastShift_lt h2 h
    rw [reciprocalOf_large h2, Nat.div_lt_iff_lt_mul (by omega), Nat.pow_add]
    omega

/-- R137's argument: with `R = ceil (N / f)` the error `R * f - N` is below `f`, so while `x * (f - 1) < N` it does not
carry `x * R / N` to the next integer. -/
theorem mul_ceil_div_div {f N x : Nat} (hf : 0 < f) (hx : x * (f - 1) < N) :
    x * ((N + (f - 1)) / f) / N = x / f := by
  have hlow : N ≤ (N + (f - 1)) / f * f := by
    have := Nat.lt_div_mul_add hf (a := N + (f - 1))
    omega
  have hhigh : (N + (f - 1)) / f * f ≤ N + (f - 1) := Nat.div_mul_le_self ..
  generalize (N + (f - 1)) / f = R at hlow hhigh
  have hx1 : x + 1 ≤ (x / f + 1) * f := Nat.lt_mul_of_div_lt (Nat.lt_succ_self _) hf
  refine Nat.div_eq_of_lt_le ?_ (Nat.lt_of_mul_lt_mul_right (a := f) ?_)
  · calc
      x / f * N ≤ x / f * (R * f) := Nat.mul_le_mul_left _ hlow
      _ = x / f * f * R := by ring
      _ ≤ x * R := Nat.mul_le_mul_right _ (Nat.div_mul_le_self x f)
  · calc
      x * R * f = x * (R * f) := Nat.mul_assoc ..
      _ ≤ x * (N + (f - 1)) := Nat.mul_le_mul_left _ hhigh
      _ = x * N + x * (f - 1) := Nat.mul_add ..
      _ < x * N + N := Nat.add_lt_add_left hx _
      _ = (x + 1) * N := (Nat.succ_mul x N).symm
      _ ≤ (x / f + 1) * f * N := Nat.mul_le_mul_right _ hx1
      _ = (x / f + 1) * N * f := Nat.mul_right_comm ..

/-- Settles O13: the two shifts are one division by `2 ^ (sh + 31)`; for `f = 1` the reciprocal is `2 ^ 32 - 1`. -/
theorem reciprocalDividesExactly : Obligations.ReciprocalDividesExactly := by
  refine ⟨fun f x h2 h hx => ?_, fun x h1 hx => ?_⟩
  · have hshift : 32 + (leastShift f - 1) = leastShift f + 31 := by have := leastShift_pos h2 h; omega
    have hsmall : x * (f - 1) < 2 ^ (leastShift f + 31) := by
      have hf : f - 1 < 2 ^ leastShift f := by have := le_two_pow_leastShift h; omega
      rw [Nat.pow_add, Nat.mul_comm]
      exact Nat.mul_lt_mul'' hf hx
    rw [reciprocalOf_large h2, storedShiftOf_large h2, Nat.div_div_eq_div_mul, ← Nat.pow_add, hshift,
      mul_ceil_div_div (by omega) hsmall]
  · rw [reciprocalOf_small (by decide), storedShiftOf_small (by decide)]
    omega

end Sys2Proof.Claims
end

section
/-! PROOF. SYMTAB (41_symbol_tables.md R130 to R136): the descriptors field by field, and the symbol it reports. -/

namespace Sys2Proof.Claims

open Sys2Proof.Machine

/-! ### Intervals over their indices -/

theorem intervals_eq_map_entry {α : Type} [Inhabited α] {n : Nat} (v : Vector α (n + 1)) :
    intervals v = (List.range n).map fun i => (entry v i, entry v (i + 1)) := by
  refine List.ext_getElem? fun i => ?_
  obtain hi | hi := Nat.lt_or_ge i n
  · simp [intervals_getElem? v i hi, hi]
  · simp [intervals_length, hi]

/-- The first interval with a property is the one whose predecessors do not have it. -/
theorem findIdx?_intervals_eq_some {α : Type} [Inhabited α] {n i : Nat} {v : Vector α (n + 1)} {p : α × α → Bool} :
    (intervals v).findIdx? p = some i ↔
      i < n ∧ p (entry v i, entry v (i + 1)) = true ∧ ∀ j, j < i → p (entry v j, entry v (j + 1)) = false := by
  simp [intervals_eq_map_entry, List.findIdx?_eq_some_iff_getElem, and_left_comm]

theorem findIdx?_intervals_eq_none {α : Type} [Inhabited α] {n : Nat} {v : Vector α (n + 1)} {p : α × α → Bool} :
    (intervals v).findIdx? p = none ↔ ∀ i, i < n → p (entry v i, entry v (i + 1)) = false := by
  simp [intervals_eq_map_entry, List.findIdx?_eq_none_iff]

/-! ### The range check -/

theorem outOfSlot_eq_false_iff (cum : Vector Word 257) (i : Nat) :
    outOfSlot (entry cum i).toNat (freqOf (entry cum i, entry cum (i + 1))) = false ↔ slotOk cum i := by
  rw [outOfSlot, Bool.or_eq_false_iff, decide_eq_false_iff_not, decide_eq_false_iff_not, Nat.not_lt, Nat.not_lt]
  rfl

theorem outOfSlot_eq_true_iff (cum : Vector Word 257) (i : Nat) :
    outOfSlot (entry cum i).toNat (freqOf (entry cum i, entry cum (i + 1))) = true ↔ ¬ slotOk cum i := by
  rw [← outOfSlot_eq_false_iff, Bool.not_eq_false]

theorem symtabRule_done {s : State} (hv : s.cumv = true) (h : ∀ i, i < 256 → slotOk s.cum i) :
    symtabRule s = .done { s with symtab := buildSymtab s.cum, symv := true } := by
  have hnone : firstOutOfSlot s.cum = none :=
    findIdx?_intervals_eq_none.2 fun i hi => (outOfSlot_eq_false_iff s.cum i).2 (h i hi)
  simp [symtabRule, hv, hnone]

theorem symtabRule_range {s : State} {i : Nat} (hv : s.cumv = true) (hi : i < 256) (hbad : ¬ slotOk s.cum i)
    (hfirst : ∀ j, j < i → slotOk s.cum j) : symtabRule s = .raised .range (BitVec.ofNat 32 i) := by
  have hsome : firstOutOfSlot s.cum = some i :=
    findIdx?_intervals_eq_some.2 ⟨hi, (outOfSlot_eq_true_iff s.cum i).2 hbad, fun j hj =>
      (outOfSlot_eq_false_iff s.cum j).2 (hfirst j hj)⟩
  simp [symtabRule, hv, hsome]

/-- Settles O10: RANGE is abortive, and R269's row for SYMTAB names SYMV and SYMTAB. -/
theorem symtabRangeReportsFirstSymbol : Obligations.SymtabRangeReportsFirstSymbol := by
  intro s l i hl hv hi hbad hfirst
  exact ⟨_, exec_faults_abortive hl (symtabRule_range hv hi hbad hfirst) rfl, rfl⟩

/-! ### The fields of a descriptor -/

theorem entry_buildSymtab (cum : Vector Word 257) {i : Nat} (h : i < 256) :
    entry (buildSymtab cum) i = descriptor (startOf cum i) (freq cum i) := by
  rw [buildSymtab, entry_tableOf, List.getElem?_map, intervals_getElem? cum i h]
  rfl

theorem toNat_thr_descriptor (st : Nat) {f : Nat} (h : f ≤ 16384) : (descriptor st f).thr.toNat = 131072 * f :=
  Nat.mod_eq_of_lt (show 131072 * f < 2 ^ 32 by omega)

theorem toNat_cmpl_descriptor (st f : Nat) : (descriptor st f).cmpl.toNat = 16384 - f :=
  Nat.mod_eq_of_lt (show 16384 - f < 2 ^ 16 by omega)

theorem toNat_rcp_descriptor (st : Nat) {f : Nat} (h : f ≤ 16384) : (descriptor st f).rcp.toNat = reciprocalOf f :=
  Nat.mod_eq_of_lt (reciprocalOf_lt h)

theorem storedShiftOf_le {f : Nat} (h : f ≤ 16384) : storedShiftOf f ≤ 13 := by
  obtain hlt | h2 := Nat.lt_or_ge f 2
  · rw [storedShiftOf_small hlt]
    decide
  · have := leastShift_le h
    rw [storedShiftOf_large h2]
    omega

theorem toNat_shift_descriptor (st : Nat) {f : Nat} (h : f ≤ 16384) :
    (descriptor st f).shift.toNat = storedShiftOf f :=
  Nat.mod_eq_of_lt ((storedShiftOf_le h).trans_lt (by decide))

theorem toNat_bias_descriptor {st : Nat} (f : Nat) (h : st ≤ 16384) :
    (descriptor st f).bias.toNat = if f < 2 then st + 16384 - 1 else st :=
  Nat.mod_eq_of_lt (show (if f < 2 then st + 16384 - 1 else st) < 2 ^ 32 by split <;> omega)

/-- Settles O9: no field of a descriptor in range is cut off by its width, and R135's shift is the least. -/
theorem symtabBuildsDescriptors : Obligations.SymtabBuildsDescriptors := by
  intro s l hl hv hok
  refine ⟨_, exec_completes hl (symtabRule_done hv hok), rfl, fun i hi => ?_⟩
  obtain ⟨hst, hroom⟩ := hok i hi
  have hf : freq s.cum i ≤ 16384 := by omega
  simp only [completed, entry_buildSymtab s.cum hi]
  refine ⟨toNat_thr_descriptor _ hf, toNat_cmpl_descriptor _ _, fun hlt => ⟨?_, ?_, ?_⟩, fun h2 =>
    ⟨leastShift (freq s.cum i), le_two_pow_leastShift hf, fun n => leastShift_le_of_le_two_pow hf, ?_, ?_, ?_⟩⟩
  · exact BitVec.eq_of_toNat_eq ((toNat_rcp_descriptor _ hf).trans (reciprocalOf_small hlt))
  · exact BitVec.eq_of_toNat_eq ((toNat_shift_descriptor _ hf).trans (storedShiftOf_small hlt))
  · exact (toNat_bias_descriptor _ hst).trans (if_pos hlt)
  · rw [toNat_rcp_descriptor _ hf, reciprocalOf_large h2, Nat.add_sub_assoc (by omega)]
  · rw [toNat_shift_descriptor _ hf, storedShiftOf_large h2]
  · exact (toNat_bias_descriptor _ hst).trans (if_neg (Nat.not_lt.2 h2))

end Sys2Proof.Claims
end

section
/-! PROOF. LUTGEN and the law of its table (41_symbol_tables.md R138, R139). -/

namespace Sys2Proof.Claims

open Sys2Proof.Machine

/-! ### The owner of a slot -/

theorem lutgenRule_seq {s : State} (h : s.cumv = false) : lutgenRule s = .raised .seq 1 := by
  simp [lutgenRule, h]

theorem lutgenRule_done {s : State} (h : s.cumv = true) :
    lutgenRule s = .done { s with lut := buildLut s.cum, lutv := true } := by
  simp [lutgenRule, h]

/-- An owner of the slot if it has one, else 0. -/
theorem slotOwner_cases (cum : Vector Word 257) (k : Nat) :
    (slotOwner cum k < 256 ∧ owns cum (slotOwner cum k) k) ∨ (slotOwner cum k = 0 ∧ ∀ i, i < 256 → ¬ owns cum i k) := by
  unfold slotOwner
  cases h : (intervals cum).findIdx? fun p => decide (p.1.toNat ≤ k) && decide (k < p.2.toNat) with
  | some i =>
    obtain ⟨hi, hown, -⟩ := findIdx?_intervals_eq_some.1 h
    exact .inl ⟨hi, by simpa [owns, startOf, endOf] using hown⟩
  | none => exact .inr ⟨rfl, fun i hi => by simpa [startOf, endOf] using findIdx?_intervals_eq_none.1 h i hi⟩

theorem slotOwner_lt (cum : Vector Word 257) (k : Nat) : slotOwner cum k < 256 := by
  have := slotOwner_cases cum k
  omega

theorem owns_slotOwner {cum : Vector Word 257} {i k : Nat} (hi : i < 256) (h : owns cum i k) :
    owns cum (slotOwner cum k) k := by
  obtain ⟨-, hown⟩ | ⟨-, hnone⟩ := slotOwner_cases cum k
  · exact hown
  · exact absurd h (hnone i hi)

theorem slotOwner_of_unowned {cum : Vector Word 257} {k : Nat} (h : ∀ i, i < 256 → ¬ owns cum i k) :
    slotOwner cum k = 0 := by
  obtain ⟨hlt, hown⟩ | ⟨h0, -⟩ := slotOwner_cases cum k
  · exact absurd hown (h _ hlt)
  · exact h0

theorem entry_buildLut (cum : Vector Word 257) {k : Nat} (h : k < 16384) :
    entry (buildLut cum) k = BitVec.ofNat 8 (slotOwner cum k) :=
  entry_tabulate _ k h

theorem toNat_entry_buildLut (cum : Vector Word 257) {k : Nat} (h : k < 16384) :
    (entry (buildLut cum) k).toNat = slotOwner cum k := by
  rw [entry_buildLut cum h, BitVec.toNat_ofNat, Nat.mod_eq_of_lt (slotOwner_lt cum k)]

/-- Settles O11: the model's owner of a slot owns it where any symbol does, and is 0 elsewhere. -/
theorem lutgenMapsEverySlot : Obligations.LutgenMapsEverySlot := by
  intro s l hl
  refine ⟨fun hv => exec_faults_precise hl (lutgenRule_seq hv) rfl, fun hv =>
    ⟨_, exec_completes hl (lutgenRule_done hv), rfl, fun k hk => ⟨fun i hi hown huniq => ?_, fun hnone => ?_⟩⟩⟩
  · exact (toNat_entry_buildLut s.cum hk).trans (huniq _ (slotOwner_lt _ _) (owns_slotOwner hi hown))
  · show entry (buildLut s.cum) k = 0
    rw [entry_buildLut s.cum hk, slotOwner_of_unowned hnone]
    rfl

/-! ### The table of a nonempty model -/

/-- A symbol owns a slot of a normal table where the table, as natural numbers, has it. -/
theorem NormalTable.owns_storeCum_iff {cum : Vector Nat 257} (h : NormalTable cum) {i k : Nat} (hi : i < 256) :
    owns (storeCum cum) i k ↔ entry cum i ≤ k ∧ k < entry cum (i + 1) := by
  rw [owns, startOf, endOf, h.toNat_entry_storeCum (by omega), h.toNat_entry_storeCum (by omega)]

/-- The intervals below `n` cover the slots below entry `n`. -/
theorem NormalTable.exists_interval {cum : Vector Nat 257} (h : NormalTable cum) {n k : Nat} (hk : k < entry cum n) :
    ∃ i, i < n ∧ entry cum i ≤ k ∧ k < entry cum (i + 1) := by
  induction n with
  | zero => exact absurd hk (by rw [h.first]; omega)
  | succ n ih =>
    obtain hlt | hge := Nat.lt_or_ge k (entry cum n)
    · obtain ⟨i, hi, hin⟩ := ih hlt
      exact ⟨i, by omega, hin⟩
    · exact ⟨n, by omega, hge, hk⟩

/-- Two intervals of a rising table that share a slot are one. -/
theorem Rising.interval_unique {cum : Vector Nat 257} (h : Rising cum) {i j k : Nat} (hi : i < 256) (hj : j < 256)
    (hik : entry cum i ≤ k ∧ k < entry cum (i + 1)) (hjk : entry cum j ≤ k ∧ k < entry cum (j + 1)) : i = j := by
  obtain hlt | heq | hgt := Nat.lt_trichotomy i j
  · have := h.entry_le (show i + 1 ≤ j from hlt) (by omega)
    omega
  · exact heq
  · have := h.entry_le (show j + 1 ≤ i from hgt) (by omega)
    omega

/-- A coherent CUM with a nonzero TOTAL is the scanned table of the counts. -/
theorem cum_eq_storeCum_scanned {s : State} (h : s.cumCoherent) (ht : s.total ≠ 0) :
    0 < countSum s.cnt 256 ∧ s.cum = storeCum (scanned s.cnt) := by
  obtain ⟨-, htotal, c, hc, hcum⟩ := h
  have hpos : 0 < countSum s.cnt 256 := by
    rw [← rawTotal_eq_countSum, ← htotal]
    exact Nat.pos_of_ne_zero fun h0 => ht (BitVec.eq_of_toNat_eq h0)
  rw [normalize_eq_scanned hpos] at hc
  cases hc
  exact ⟨hpos, hcum⟩

/-- Settles O12: the intervals of a normal table cover the slots once each, and only counted symbols have a width. -/
theorem lutOwnersHaveCounts : Obligations.LutOwnersHaveCounts := by
  rintro s ⟨hcumv, -, hlutv⟩ hv hl ht k hk
  obtain ⟨hpos, hcum⟩ := cum_eq_storeCum_scanned (hcumv hv) ht
  have hn := normalTable_scanned hpos
  have howner : (entry s.lut k).toNat = slotOwner s.cum k := by rw [hlutv hl, toNat_entry_buildLut s.cum hk]
  have hlt := slotOwner_lt s.cum k
  have hown : owns s.cum (slotOwner s.cum k) k := by
    obtain ⟨i, hi, hin⟩ := hn.exists_interval (hn.last.symm ▸ hk)
    exact owns_slotOwner hi (hcum ▸ (hn.owns_storeCum_iff hi).2 hin)
  rw [howner]
  rw [hcum] at hown hlt ⊢
  have hin := (hn.owns_storeCum_iff hlt).1 hown
  refine ⟨hown, ?_, fun i hi hik => hn.rising.interval_unique hi hlt ((hn.owns_storeCum_iff hi).1 hik) hin⟩
  rw [← width_scanned_pos_iff hpos hlt, width]
  omega

end Sys2Proof.Claims
end

section
/-! PROOF. The coder's entry and exit commands, ENCINIT, ENCFLUSH and DECINIT (42_rans_codec.md R150, R155, R156). -/

namespace Sys2Proof.Claims

open Sys2Proof.Machine

theorem regionOk_eq_true_iff {size lim hi : Nat} : regionOk size lim hi = true ↔ lim ≤ hi ∧ hi ≤ size := by
  simp [regionOk]

/-! ### ENCINIT -/

theorem encinitRule_seq {s : State} {hi lim : Word} (h : s.symv = false) : encinitRule hi lim s = .raised .seq 2 := by
  simp [encinitRule, h]

theorem encinitRule_badAddr {s : State} {hi lim : Word} (hv : s.symv = true)
    (h : hi.toNat < lim.toNat ∨ s.params.wmemSize < hi.toNat) : encinitRule hi lim s = .raised .badAddr 0 := by
  have hbad : regionOk s.params.wmemSize lim.toNat hi.toNat = false := by
    rw [← Bool.not_eq_true, regionOk_eq_true_iff]
    omega
  simp [encinitRule, hv, hbad]

theorem encinitRule_done {s : State} {hi lim : Word} (hv : s.symv = true) (hlim : lim.toNat ≤ hi.toNat)
    (hsize : hi.toNat ≤ s.params.wmemSize) :
    encinitRule hi lim s = .done { s with
      state := 0x00800000, wend := hi, wptr := hi, wlim := lim, mode := .enc } := by
  simp [encinitRule, hv, regionOk_eq_true_iff.2 ⟨hlim, hsize⟩]

/-- Settles O14: R150's two checks in order, both precise faults, and then the whole effect. -/
theorem encinitOpensTheEncoder : Obligations.EncinitOpensTheEncoder := by
  intro s l hl
  exact ⟨fun hv => exec_faults_precise hl (encinitRule_seq hv) rfl,
    fun hv h => exec_faults_precise hl (encinitRule_badAddr hv h) rfl,
    fun hv hlim hsize => exec_completes hl (encinitRule_done hv hlim hsize)⟩

/-! ### ENCFLUSH -/

theorem encflushRule_seq {s : State} (h : s.mode ≠ .enc) : encflushRule s = .raised .seq 4 := if_pos h

theorem encflushRule_outOverflow {s : State} (hm : s.mode = .enc) (h : s.wptr.toNat < s.wlim.toNat + 4) :
    encflushRule s = .raised .outOverflow s.wptr := by
  rw [encflushRule, if_neg (not_not.2 hm), if_pos (by omega)]

theorem encflushRule_done {s : State} (hm : s.mode = .enc) (hroom : s.wlim.toNat + 4 ≤ s.wptr.toNat)
    (hsize : s.wptr.toNat ≤ s.params.wmemSize) :
    encflushRule s = .done { s with
      wptr := s.wptr - 4, wmem := memWrite32 s.wmem (s.wptr.toNat - 4) s.state, outlen := s.wend - (s.wptr - 4)
      mode := .idle } := by
  have hregion : regionOk s.params.wmemSize s.wlim.toNat s.wptr.toNat = true :=
    regionOk_eq_true_iff.2 ⟨by omega, hsize⟩
  rw [encflushRule, if_neg (not_not.2 hm), if_neg (by omega), if_neg (by simp [hregion])]

theorem readByte_memWrite32 (m : Memory) (a : Nat) (v : Word) {j : Nat} (h : j < 4) :
    readByte (memWrite32 m a v) (a + j) = v.extractLsb' (8 * j) 8 := by
  rw [memWrite32, readByte_storeBytes, if_pos (by rw [leBytes_length]; omega), Nat.add_sub_cancel_left,
    leBytes_getD v 4 j 0 h]

theorem readByte_memWrite32_outside (m : Memory) {a b : Nat} (v : Word) (h : b < a ∨ a + 4 ≤ b) :
    readByte (memWrite32 m a v) b = readByte m b :=
  readByte_storeBytes_outside m a b _ (by rwa [leBytes_length])

/-- Settles O18: with four bytes of room the flush is one little-endian word in front of WPTR. -/
theorem encflushStoresTheState : Obligations.EncflushStoresTheState := by
  intro s l hl
  refine ⟨fun hm => exec_faults_precise hl (encflushRule_seq hm) rfl,
    fun hm h => exec_faults_abortive hl (encflushRule_outOverflow hm h) rfl, fun hm hroom hsize =>
    ⟨_, exec_completes hl (encflushRule_done hm hroom hsize), rfl, fun j hj => readByte_memWrite32 _ _ _ hj,
      fun a ha => readByte_memWrite32_outside _ _ (by omega)⟩⟩

/-! ### DECINIT -/

theorem decinitRule_seq {s : State} {src len : Word} (h : s.lutv = false) :
    decinitRule src len s = .raised .seq 3 := by
  simp [decinitRule, h]

theorem decinitRule_badAddr {s : State} {src len : Word} (hv : s.lutv = true)
    (h : s.params.wmemSize < src.toNat + len.toNat) : decinitRule src len s = .raised .badAddr 0 := by
  simp [decinitRule, hv, inRange, h]

theorem decinitRule_inUnderrun {s : State} {src len : Word} (hv : s.lutv = true)
    (h : src.toNat + len.toNat ≤ s.params.wmemSize) (hlen : len.toNat < 4) :
    decinitRule src len s = .raised .inUnderrun src := by
  simp [decinitRule, hv, inRange, h, hlen]

theorem decinitRule_done {s : State} {src len : Word} (hv : s.lutv = true)
    (h : src.toNat + len.toNat ≤ s.params.wmemSize) (hlen : 4 ≤ len.toNat) :
    decinitRule src len s = .done { s with
      state := memRead32 s.wmem src.toNat, rptr := src + 4, rlim := src + len, mode := .dec } := by
  simp [decinitRule, hv, inRange, h, Nat.not_lt.2 hlen]

/-- Settles O19: R156's three checks in order, and then STATE is the little-endian word at `src`. -/
theorem decinitReadsTheState : Obligations.DecinitReadsTheState := by
  intro s l hl
  exact ⟨fun hv => exec_faults_precise hl (decinitRule_seq hv) rfl,
    fun hv h => exec_faults_precise hl (decinitRule_badAddr hv h) rfl,
    fun hv h hlen => exec_faults_abortive hl (decinitRule_inUnderrun hv h hlen) rfl,
    fun hv h hlen => ⟨_, exec_completes hl (decinitRule_done hv h hlen), rfl, fun j hj =>
      extractLsb'_memRead32 _ _ j hj⟩⟩

end Sys2Proof.Claims
end

section
/-! PROOF. ENCPUT (42_rans_codec.md R152 to R154): the renormalization loop by the number of its turns, and what the
reciprocal makes of the value it leaves. -/

namespace Sys2Proof.Claims

open Sys2Proof.Machine

/-! ### The renormalization loop -/

/-- The loop of R152 on `x` makes `k` turns: it stops below `thr`, and not before. -/
structure EncTurns (thr x k : Nat) : Prop where
  stops : x / 256 ^ k < thr
  runs : ∀ j, j < k → thr ≤ x / 256 ^ j

/-- The memory after `k` turns of R152's loop: each stores the low byte of `x` one address further down. -/
def emitDown (m : Memory) (wptr x k : Nat) : Memory :=
  match k with
  | 0 => m
  | k + 1 => emitDown (writeByte m (wptr - 1) (BitVec.ofNat 8 x)) (wptr - 1) (x / 256) k

theorem div_256_div_pow (x j : Nat) : x / 256 / 256 ^ j = x / 256 ^ (j + 1) := by
  rw [Nat.div_div_eq_div_mul, Nat.pow_succ']

theorem EncTurns.after_turn {thr x k : Nat} (h : EncTurns thr x (k + 1)) : EncTurns thr (x / 256) k where
  stops := div_256_div_pow x k ▸ h.stops
  runs j hj := div_256_div_pow x j ▸ h.runs (j + 1) (by omega)

theorem encRenorm_of_turns {thr room x wptr k : Nat} {m : Memory} (h : EncTurns thr x k) (hroom : k ≤ room) :
    encRenorm thr room x wptr m = .ok ⟨x / 256 ^ k, wptr - k, emitDown m wptr x k⟩ := by
  induction k generalizing room x wptr m with
  | zero =>
    have hx : x < thr := by simpa using h.stops
    rw [encRenorm.eq_def, if_pos hx, pow_zero, Nat.div_one, Nat.sub_zero, emitDown]
  | succ k ih =>
    have hx : ¬ x < thr := Nat.not_lt.2 (by simpa using h.runs 0 (by omega))
    obtain ⟨room, rfl⟩ := Nat.exists_eq_add_one.2 (show 0 < room by omega)
    rw [encRenorm.eq_def, if_neg hx, emitDown, ← div_256_div_pow, Nat.add_comm k 1, ← Nat.sub_sub]
    exact ih h.after_turn (by omega)

theorem readByte_emitDown_outside {m : Memory} {wptr x k a : Nat} (h : a < wptr - k ∨ wptr ≤ a) (hk : k ≤ wptr) :
    readByte (emitDown m wptr x k) a = readByte m a := by
  induction k generalizing m wptr x with
  | zero => rfl
  | succ k ih => rw [emitDown, ih (by omega) (by omega), readByte_writeByte_ne _ _ _ _ (by omega)]

/-- The byte of turn `j` stands `j` below the first. -/
theorem readByte_emitDown {m : Memory} {wptr x k j : Nat} (hj : j < k) (hk : k ≤ wptr) :
    readByte (emitDown m wptr x k) (wptr - 1 - j) = BitVec.ofNat 8 (x / 256 ^ j) := by
  induction k generalizing m wptr x j with
  | zero => omega
  | succ k ih =>
    cases j with
    | zero =>
      rw [emitDown, Nat.sub_zero, readByte_emitDown_outside (.inr (le_refl _)) (by omega), readByte_writeByte_same,
        pow_zero, Nat.div_one]
    | succ j => rw [emitDown, Nat.add_comm j 1, ← Nat.sub_sub, ih (by omega) (by omega), div_256_div_pow, Nat.add_comm]

/-! ### The command -/

/-- ENCPUT's whole effect where the loop makes `k` turns (R152, R153). -/
def putState (d : SymDesc) (k : Nat) (s : State) : State :=
  { s with
    wmem := emitDown s.wmem s.wptr.toNat s.state.toNat k
    wptr := s.wptr - BitVec.ofNat 32 k
    state := encInsert d (s.state.toNat / 256 ^ k) }

theorem ofNat_toNat_sub (w : Word) {k : Nat} (h : k ≤ w.toNat) :
    BitVec.ofNat 32 (w.toNat - k) = w - BitVec.ofNat 32 k := by
  bv_omega

theorem encputRule_done {s : State} {sym : Byte} {k : Nat} (hm : s.mode = .enc)
    (hthr : (entry s.symtab sym.toNat).thr ≠ 0) (hlim : s.wlim.toNat ≤ s.wptr.toNat)
    (hsize : s.wptr.toNat ≤ s.params.wmemSize)
    (hk : EncTurns (entry s.symtab sym.toNat).thr.toNat s.state.toNat k) (hroom : k ≤ s.wptr.toNat - s.wlim.toNat) :
    encputRule sym s = .done (putState (entry s.symtab sym.toNat) k s) := by
  have hregion : regionOk s.params.wmemSize s.wlim.toNat s.wptr.toNat = true := regionOk_eq_true_iff.2 ⟨hlim, hsize⟩
  rw [encputRule, if_neg (not_not.2 hm), if_neg hthr, if_neg (by simp [hregion]), encRenorm_of_turns hk hroom]
  simp only [putState, ofNat_toNat_sub s.wptr (show k ≤ s.wptr.toNat by omega)]

/-- What an ENCPUT that ends without a fault has found and done. -/
theorem encputRule_eq_done {s u : State} {sym : Byte} (h : encputRule sym s = .done u) :
    ∃ k, (entry s.symtab sym.toNat).thr ≠ 0 ∧ EncTurns (entry s.symtab sym.toNat).thr.toNat s.state.toNat k ∧
      k ≤ s.wptr.toNat ∧ u = putState (entry s.symtab sym.toNat) k s := by
  have hrule := h
  rw [encputRule] at h
  split_ifs at h with hm hthr hregion
  split at h
  · cases h
  · next e he =>
    obtain ⟨k, hroom, hx, -, hstops, hruns⟩ := encRenorm_eq_ok he
    have hk : EncTurns (entry s.symtab sym.toNat).thr.toNat s.state.toNat k := ⟨hx ▸ hstops, hruns⟩
    obtain ⟨hlim, hsize⟩ := regionOk_eq_true_iff.1 (Bool.not_eq_false _ ▸ hregion)
    rw [encputRule_done (not_not.1 hm) hthr hlim hsize hk hroom] at hrule
    cases hrule
    exact ⟨k, hthr, hk, by omega, rfl⟩

/-- Settles O15: the number of turns is the loop's own, so the memory is `emitDown` and STATE what R153 inserts. -/
theorem encputEmitsAndInserts : Obligations.EncputEmitsAndInserts := by
  intro s l sym k hl hm hthr hlim hsize hstops hruns hroom
  refine ⟨_, exec_completes hl (encputRule_done hm hthr hlim hsize ⟨hstops, hruns⟩ hroom), rfl, ?_,
    fun j hj => readByte_emitDown hj (by omega), fun a ha => readByte_emitDown_outside ha (by omega)⟩
  exact BitVec.toNat_ofNat ..

end Sys2Proof.Claims
end

section
/-! PROOF. ENCPUT divides exactly and stays within its bounds (42_rans_codec.md R154): by the reciprocal's law, the new
STATE of a symbol in the slots [st, st + f) is the rANS step on the renormalized value. -/

namespace Sys2Proof.Claims

open Sys2Proof.Machine

/-- The rANS step of R154: `x` to the slot of its remainder, in the slots [st, st + f). -/
def ransStep (st f x : Nat) : Nat := x / f * 16384 + x % f + st

/-- R154's interval of the renormalized value. -/
structure PutBounds (f x : Nat) : Prop where
  low : 2 ^ 9 * f ≤ x
  high : x < 2 ^ 17 * f

theorem PutBounds.div_bounds {f x : Nat} (h : PutBounds f x) (hf : 1 ≤ f) : 2 ^ 9 ≤ x / f ∧ x / f < 2 ^ 17 :=
  ⟨(Nat.le_div_iff_mul_le hf).2 h.low, (Nat.div_lt_iff_lt_mul hf).2 h.high⟩

theorem PutBounds.ransStep_bounds {st f x : Nat} (h : PutBounds f x) (hf : 1 ≤ f) (hst : st + f ≤ 16384) :
    2 ^ 23 ≤ ransStep st f x ∧ ransStep st f x < 2 ^ 31 := by
  obtain ⟨hlow, hhigh⟩ := h.div_bounds hf
  have hmod : x % f < f := Nat.mod_lt _ hf
  unfold ransStep
  omega

/-! ### The renormalized value -/

/-- Fewer than 3 turns, and the value they leave is within R154's bounds: a turn on a value at or above `2 ^ 17 * f`
leaves at least `2 ^ 9 * f`. -/
theorem EncTurns.bounds {f x k : Nat} (h : EncTurns (131072 * f) x k) (hf : 1 ≤ f) (hf' : f ≤ 16384)
    (hlow : 2 ^ 23 ≤ x) (hhigh : x < 2 ^ 31) : k ≤ 2 ∧ PutBounds f (x / 256 ^ k) := by
  have hk : k ≤ 2 := by
    by_contra hk
    have := h.runs 2 (by omega)
    omega
  refine ⟨hk, ?_, h.stops⟩
  cases k with
  | zero => omega
  | succ j =>
    have := h.runs j (by omega)
    have hturn : x / 256 ^ (j + 1) = x / 256 ^ j / 256 := by rw [Nat.div_div_eq_div_mul, Nat.pow_succ]
    omega

/-- The loop stops: two turns leave a value below `2 ^ 15`. -/
theorem exists_encTurns {f x : Nat} (hf : 1 ≤ f) (hx : x < 2 ^ 31) : ∃ k, EncTurns (131072 * f) x k := by
  have hex : ∃ k, x / 256 ^ k < 131072 * f := ⟨2, by omega⟩
  exact ⟨Nat.find hex, Nat.find_spec hex, fun j hj => Nat.not_lt.1 (Nat.find_min hex hj)⟩

/-! ### The value inserted -/

theorem thr_descriptor_eq_zero_iff (st : Nat) {f : Nat} (h : f ≤ 16384) : (descriptor st f).thr = 0 ↔ f = 0 := by
  rw [← BitVec.toNat_inj, toNat_thr_descriptor st h]
  simp

theorem encQuotient_descriptor {st f x : Nat} (hf : 1 ≤ f) (hf' : f ≤ 16384) (h : PutBounds f x) :
    encQuotient (descriptor st f) x = if f < 2 then x - 1 else x / f := by
  obtain ⟨hlarge, hone⟩ := reciprocalDividesExactly
  obtain ⟨hlow, hhigh⟩ := h
  rw [encQuotient, toNat_rcp_descriptor st hf', toNat_shift_descriptor st hf']
  split
  · next hlt =>
    obtain rfl : f = 1 := by omega
    exact hone x (by omega) (by omega)
  · exact hlarge f x (by omega) hf' (by omega)

/-- R154's exactness. For `f = 1` the quotient is `x - 1` and BIAS makes up for it. -/
theorem toNat_encInsert_descriptor {st f x : Nat} (hf : 1 ≤ f) (hst : st + f ≤ 16384) (h : PutBounds f x) :
    (encInsert (descriptor st f) x).toNat = ransStep st f x := by
  have hinsert : x + (descriptor st f).bias.toNat +
      encQuotient (descriptor st f) x * (descriptor st f).cmpl.toNat = ransStep st f x := by
    rw [encQuotient_descriptor hf (by omega) h, toNat_bias_descriptor f (by omega), toNat_cmpl_descriptor, ransStep]
    split
    · next hlt =>
      obtain rfl : f = 1 := by omega
      have hlow := h.low
      omega
    · have hdiv : x / f * f + x % f = x := Nat.div_add_mod' x f
      have hscale : x / f * f + x / f * (16384 - f) = x / f * 16384 := by
        rw [← Nat.mul_add, Nat.add_sub_cancel' (by omega)]
      omega
  obtain ⟨-, hlt⟩ := h.ransStep_bounds hf hst
  rw [encInsert, hinsert, BitVec.toNat_ofNat, Nat.mod_eq_of_lt (by omega)]

/-- Settles O17: THR is `2 ^ 17 * f`, so the loop leaves a value within `PutBounds`, on which the insertion is the
rANS step. -/
theorem encputIsExactAndBounded : Obligations.EncputIsExactAndBounded := by
  intro s l sym st f hl hm hf hst hd hlow hhigh hroom hsize
  obtain ⟨k, hk⟩ := exists_encTurns hf hhigh
  obtain ⟨hk2, hbounds⟩ := hk.bounds hf (by omega) hlow hhigh
  have hthr : (entry s.symtab sym.toNat).thr.toNat = 131072 * f := by rw [hd, toNat_thr_descriptor st (by omega)]
  have hthr0 : (entry s.symtab sym.toNat).thr ≠ 0 := by
    rw [hd, Ne, thr_descriptor_eq_zero_iff st (by omega)]
    omega
  have hstate := toNat_encInsert_descriptor hf hst hbounds
  refine ⟨_, k, exec_completes hl (encputRule_done hm hthr0 (by omega) hsize (hthr.symm ▸ hk) (by omega)), hk2, ?_,
    hbounds.low, hbounds.high, ?_⟩
  · simp only [completed, putState]
    bv_omega
  · simp only [completed, putState, hd, hstate]
    exact ⟨rfl, hbounds.ransStep_bounds hf hst⟩

end Sys2Proof.Claims
end

section
/-! PROOF. DECGET (42_rans_codec.md R157 to R159): the loop by the number of bytes it takes. -/

namespace Sys2Proof.Claims

open Sys2Proof.Machine

/-- The first of the bytes shifted in, apart from the rest. -/
theorem shiftIn_succ (m : Memory) (x p k : Nat) :
    shiftIn m x p (k + 1) = shiftIn m ((x * 256 + (readByte m p).toNat) % 2 ^ 32) (p + 1) k := by
  induction k with
  | zero => rfl
  | succ k ih => rw [shiftIn, ih, shiftIn, Nat.add_right_comm p 1 k]; rfl

theorem decRenorm_of_shiftIn {m : Memory} {avail x p k : Nat} (hk : k ≤ avail) (hstop : 2 ^ 23 ≤ shiftIn m x p k)
    (hrun : ∀ j, j < k → shiftIn m x p j < 2 ^ 23) : decRenorm m avail x p = .ok (shiftIn m x p k, p + k) := by
  induction k generalizing avail x p with
  | zero =>
    have hx : Config.lower ≤ x := hstop
    rw [decRenorm.eq_def, if_pos hx, shiftIn, Nat.add_zero]
  | succ k ih =>
    have hx : ¬ Config.lower ≤ x := Nat.not_le.2 (hrun 0 (by omega))
    obtain ⟨avail, rfl⟩ := Nat.exists_eq_add_one.2 (show 0 < avail by omega)
    rw [decRenorm.eq_def, if_neg hx, shiftIn_succ, Nat.add_comm k 1, ← Nat.add_assoc]
    exact ih (by omega) (shiftIn_succ m x p k ▸ hstop) fun j hj => shiftIn_succ m x p j ▸ hrun (j + 1) (by omega)

theorem decAdvance_eq_advanced (s : State) : decAdvance s.cum (decSymbol s).toNat s.state.toNat =
    advanced s (lookedUp s) := rfl

theorem decgetRule_done {s : State} {k : Nat} (hm : s.mode = .dec) (hcum : entry s.cum 256 ≠ 0)
    (hlim : s.rptr.toNat ≤ s.rlim.toNat) (hsize : s.rlim.toNat ≤ s.params.wmemSize)
    (hk : k ≤ s.rlim.toNat - s.rptr.toNat)
    (hstop : 2 ^ 23 ≤ shiftIn s.wmem (advanced s (lookedUp s)) s.rptr.toNat k)
    (hrun : ∀ j, j < k → shiftIn s.wmem (advanced s (lookedUp s)) s.rptr.toNat j < 2 ^ 23) :
    decgetRule s = .done { s with
      state := BitVec.ofNat 32 (shiftIn s.wmem (advanced s (lookedUp s)) s.rptr.toNat k)
      rptr := s.rptr + BitVec.ofNat 32 k
      result := lookedUp s } := by
  have hregion : regionOk s.params.wmemSize s.rptr.toNat s.rlim.toNat = true := regionOk_eq_true_iff.2 ⟨hlim, hsize⟩
  have hrptr : BitVec.ofNat 32 (s.rptr.toNat + k) = s.rptr + BitVec.ofNat 32 k := by simp [BitVec.ofNat_add]
  rw [decgetRule, if_neg (not_not.2 hm), if_neg hcum, if_neg (by simp [hregion]), decAdvance_eq_advanced,
    decRenorm_of_shiftIn hk hstop hrun]
  simp only [hrptr]
  rfl

/-- R158's bound, for an interval that ends within SCALE and so is at most SCALE wide. -/
theorem advanced_lt {s : State} {sym : Byte} (hend : endOf s.cum sym.toNat ≤ 16384) :
    advanced s sym < 2 ^ 32 := by
  have hwidth : (endOf s.cum sym.toNat - startOf s.cum sym.toNat) * (s.state.toNat / 2 ^ 14) ≤
      16384 * (s.state.toNat / 2 ^ 14) := Nat.mul_le_mul_right _ (by omega)
  have hstate := s.state.isLt
  unfold advanced
  omega

/-- Settles O20: the loop stops after the bytes whose number is given, and R158's value does not wrap. -/
theorem decgetDecodesOneSymbol : Obligations.DecgetDecodesOneSymbol := by
  intro s l k hl hm hcum hlim hsize hk hstop hrun
  exact ⟨exec_completes hl (decgetRule_done hm hcum hlim hsize hk hstop hrun), fun _ hend => advanced_lt hend⟩

end Sys2Proof.Claims
end

section
/-! PROOF. DECGET inverts ENCPUT (42_rans_codec.md R161): the slot of the rANS step names the symbol, the advance undoes
the step, and the emitted bytes, read upwards, undo the renormalization. -/

namespace Sys2Proof.Claims

open Sys2Proof.Machine

/-! ### The slot of a symbol -/

/-- A stored CUM that is a normal table (R119). -/
def StoredNormal (c : Vector Word 257) : Prop := ∃ cum, NormalTable cum ∧ c = storeCum cum

theorem StoredNormal.toNat_entry_last {c : Vector Word 257} (h : StoredNormal c) : (entry c 256).toNat = 16384 := by
  obtain ⟨cum, hn, rfl⟩ := h
  rw [hn.toNat_entry_storeCum (le_refl _), hn.last]

theorem StoredNormal.slotOwner_eq {c : Vector Word 257} (h : StoredNormal c) {i k : Nat} (hi : i < 256)
    (hown : owns c i k) : slotOwner c k = i := by
  obtain ⟨cum, hn, rfl⟩ := h
  have hlt := slotOwner_lt (storeCum cum) k
  exact hn.rising.interval_unique hlt hi ((hn.owns_storeCum_iff hlt).1 (owns_slotOwner hi hown))
    ((hn.owns_storeCum_iff hi).1 hown)

/-- A symbol's slots are [start, start + freq), within SCALE. -/
theorem StoredNormal.startOf_add_freq {c : Vector Word 257} (h : StoredNormal c) {i : Nat} (hi : i < 256) :
    startOf c i + freq c i = endOf c i ∧ endOf c i ≤ 16384 := by
  obtain ⟨cum, hn, rfl⟩ := h
  have hstart : startOf (storeCum cum) i = entry cum i := hn.toNat_entry_storeCum (by omega)
  have hend : endOf (storeCum cum) i = entry cum (i + 1) := hn.toNat_entry_storeCum (by omega)
  have hup : startOf (storeCum cum) i ≤ endOf (storeCum cum) i := by
    rw [hstart, hend]
    exact hn.rising i hi
  refine ⟨?_, hend ▸ hn.entry_le_scale hi⟩
  rw [freq, BitVec.toNat_sub_of_le (BitVec.le_def.2 hup)]
  exact Nat.add_sub_cancel' hup

/-- With a total of 0 a coherent CUM is all zero, and no symbol has a width. -/
theorem storedNormal_of_freq {s : State} (h : s.cumCoherent) {i : Nat} (hi : i < 256) (hf : freq s.cum i ≠ 0) :
    StoredNormal s.cum := by
  obtain ⟨-, -, c, hc, hcum⟩ := h
  rw [normalize_eq_ok] at hc
  cases hc
  by_cases h0 : countSum s.cnt 256 = 0
  · refine absurd ?_ hf
    rw [hcum, normalized, if_pos h0, freq, storeCum, entry_mapTable _ _ _ (by omega),
      entry_mapTable _ _ _ (by omega), entry_tabulate _ _ (by omega), entry_tabulate _ _ (by omega)]
    rfl
  · exact ⟨_, normalTable_scanned (Nat.pos_of_ne_zero h0), by rw [hcum, normalized, if_neg h0]⟩

/-! ### The bytes and the loop -/

/-- Of the bytes emitted, the last one emitted stands lowest and is read first. -/
theorem readByte_emitDown_up {m : Memory} {wptr x k j : Nat} (hj : j < k) (hk : k ≤ wptr) :
    readByte (emitDown m wptr x k) (wptr - k + j) = BitVec.ofNat 8 (x / 256 ^ (k - (j + 1))) := by
  rw [← readByte_emitDown (m := m) (x := x) (show k - (j + 1) < k by omega) hk]
  congr 1
  omega

/-- Each byte shifted in undoes one turn of the encoder's loop. -/
theorem shiftIn_emitted {m : Memory} {x p k j : Nat} (hx : x < 2 ^ 32) (hj : j ≤ k)
    (hbytes : ∀ i, i < k → readByte m (p + i) = BitVec.ofNat 8 (x / 256 ^ (k - (i + 1)))) :
    shiftIn m (x / 256 ^ k) p j = x / 256 ^ (k - j) := by
  induction j with
  | zero => rfl
  | succ j ih =>
    have hk : k - j = k - (j + 1) + 1 := by omega
    have hle : x / 256 ^ (k - (j + 1)) ≤ x := Nat.div_le_self ..
    rw [shiftIn, ih (by omega), hbytes j hj, hk, Nat.pow_succ, ← Nat.div_div_eq_div_mul, BitVec.toNat_ofNat]
    omega

/-- Before the last byte the value shifted in is still below LOWER. -/
theorem div_256_pow_lt_lower {x i : Nat} (hx : x < 2 ^ 31) (hi : 0 < i) : x / 256 ^ i < 2 ^ 23 := by
  obtain ⟨i, rfl⟩ := Nat.exists_eq_add_one.2 hi
  have hle : x / 256 / 256 ^ i ≤ x / 256 := Nat.div_le_self ..
  rw [← div_256_div_pow]
  omega

/-! ### The step and the advance -/

theorem ransStep_mod {st f x : Nat} (hf : 1 ≤ f) (hst : st + f ≤ 16384) :
    ransStep st f x % 2 ^ 14 = x % f + st := by
  have hmod : x % f < f := Nat.mod_lt _ hf
  unfold ransStep
  omega

theorem ransStep_div {st f x : Nat} (hf : 1 ≤ f) (hst : st + f ≤ 16384) : ransStep st f x / 2 ^ 14 = x / f := by
  have hmod : x % f < f := Nat.mod_lt _ hf
  unfold ransStep
  omega

/-- A decoder over a normal table and its LUT holds the rANS step of `x` for the symbol. -/
structure HoldsStep (u : State) (sym : Byte) (x : Nat) : Prop where
  table : StoredNormal u.cum
  lut : u.lut = buildLut u.cum
  width : 1 ≤ freq u.cum sym.toNat
  state : u.state.toNat = ransStep (startOf u.cum sym.toNat) (freq u.cum sym.toNat) x

/-- The slot of the step is one of the symbol's own. -/
theorem HoldsStep.lookedUp_eq {u : State} {sym : Byte} {x : Nat} (h : HoldsStep u sym x) : lookedUp u = sym := by
  obtain ⟨hend, hscale⟩ := h.table.startOf_add_freq sym.isLt
  have hslot : u.state.toNat % 2 ^ 14 = x % freq u.cum sym.toNat + startOf u.cum sym.toNat := by
    rw [h.state, ransStep_mod h.width (by omega)]
  have hmod : x % freq u.cum sym.toNat < freq u.cum sym.toNat := Nat.mod_lt _ h.width
  have hown : owns u.cum sym.toNat (u.state.toNat % 2 ^ 14) := ⟨by omega, by omega⟩
  apply BitVec.eq_of_toNat_eq
  rw [lookedUp, h.lut, toNat_entry_buildLut u.cum (by omega), h.table.slotOwner_eq sym.isLt hown]

/-- The advance undoes the step. -/
theorem HoldsStep.advanced_eq {u : State} {sym : Byte} {x : Nat} (h : HoldsStep u sym x) : advanced u sym = x := by
  obtain ⟨hend, hscale⟩ := h.table.startOf_add_freq sym.isLt
  have hwidth : endOf u.cum sym.toNat - startOf u.cum sym.toNat = freq u.cum sym.toNat := by omega
  rw [advanced, hwidth, h.state, ransStep_mod h.width (by omega), ransStep_div h.width (by omega), ← Nat.add_assoc,
    Nat.add_sub_cancel, Nat.div_add_mod]

/-! ### The two commands -/

/-- A decoder that holds the step on what `y` leaves after `k` turns, with the `k` bytes emitted next in its input,
gives back the symbol and `y` and consumes the bytes. -/
theorem decgetRule_of_emitted {u : State} {sym : Byte} {y : Word} {k : Nat} (h : HoldsStep u sym (y.toNat / 256 ^ k))
    (hm : u.mode = .dec) (hroom : u.rptr.toNat + k ≤ u.rlim.toNat) (hsize : u.rlim.toNat ≤ u.params.wmemSize)
    (hlow : 2 ^ 23 ≤ y.toNat) (hhigh : y.toNat < 2 ^ 31)
    (hbytes : ∀ i, i < k → readByte u.wmem (u.rptr.toNat + i) = BitVec.ofNat 8 (y.toNat / 256 ^ (k - (i + 1)))) :
    decgetRule u = .done { u with state := y, rptr := u.rptr + BitVec.ofNat 32 k, result := sym } := by
  have hcum0 : entry u.cum 256 ≠ 0 := by
    have := h.table.toNat_entry_last
    bv_omega
  have hshift : ∀ j, j ≤ k →
      shiftIn u.wmem (advanced u (lookedUp u)) u.rptr.toNat j = y.toNat / 256 ^ (k - j) := fun j hj => by
    rw [h.lookedUp_eq, h.advanced_eq, shiftIn_emitted y.isLt hj hbytes]
  have hend : shiftIn u.wmem (advanced u (lookedUp u)) u.rptr.toNat k = y.toNat := by simp [hshift k (le_refl k)]
  have hrun : ∀ j, j < k → shiftIn u.wmem (advanced u (lookedUp u)) u.rptr.toNat j < 2 ^ 23 := fun j hj =>
    hshift j hj.le ▸ div_256_pow_lt_lower hhigh (by omega)
  rw [decgetRule_done hm hcum0 (by omega) hsize (by omega) (hend ▸ hlow) hrun, hend, h.lookedUp_eq,
    BitVec.ofNat_toNat, BitVec.setWidth_eq]

/-- A command that ends without a fault has completed. -/
theorem exec_eq_next_of_fault_none {i : Instr} {s t : State} (ht : exec i s = .next t) (hfault : t.fault = none) :
    ∃ l u, s.latch = some l ∧ ruleOf i l.ops s = .done u ∧ t = completed u := by
  obtain ⟨l, hl, ⟨u, hu, rfl⟩ | ⟨c, info, -, rfl⟩⟩ := exec_cases ht
  · exact ⟨l, u, hl, hu, rfl⟩
  · obtain ⟨-, -, -, -, hsome, -⟩ := takeFault_frame i c info l.ops s
    rw [hsome] at hfault
    cases hfault

/-- What an ENCPUT that ends without a fault has done, on coherent tables: the symbol has a width in a normal table, and
the new STATE is the rANS step on what the renormalization left. -/
theorem encput_eq_next {s t : State} {sym : Byte} (htables : s.tablesCoherent) (hcumv : s.cumv = true)
    (hsymv : s.symv = true) (hlow : 2 ^ 23 ≤ s.state.toNat) (hhigh : s.state.toNat < 2 ^ 31)
    (ht : exec (.encput sym) s = .next t) (hfault : t.fault = none) :
    ∃ k, StoredNormal s.cum ∧ 1 ≤ freq s.cum sym.toNat ∧ k ≤ s.wptr.toNat ∧
      t = completed (putState (entry s.symtab sym.toNat) k s) ∧
      t.state.toNat = ransStep (startOf s.cum sym.toNat) (freq s.cum sym.toNat) (s.state.toNat / 256 ^ k) := by
  obtain ⟨hcoherent, hsymtab, -⟩ := htables
  obtain ⟨l, u, -, hu, rfl⟩ := exec_eq_next_of_fault_none ht hfault
  obtain ⟨k, hthr, hk, hroom, rfl⟩ := encputRule_eq_done hu
  have hd : entry s.symtab sym.toNat = descriptor (startOf s.cum sym.toNat) (freq s.cum sym.toNat) := by
    rw [hsymtab hsymv, entry_buildSymtab s.cum sym.isLt]
  have hf : freq s.cum sym.toNat ≠ 0 := fun h0 =>
    hthr (by rw [hd, h0]; exact (thr_descriptor_eq_zero_iff _ (by omega)).2 rfl)
  have hn := storedNormal_of_freq (hcoherent hcumv) sym.isLt hf
  obtain ⟨hend, hscale⟩ := hn.startOf_add_freq sym.isLt
  rw [hd, toNat_thr_descriptor _ (by omega)] at hk
  obtain ⟨-, hbounds⟩ := hk.bounds (by omega) (by omega) hlow hhigh
  refine ⟨k, hn, by omega, hroom, rfl, ?_⟩
  simp only [completed, putState, hd]
  exact toNat_encInsert_descriptor (by omega) (by omega) hbounds

/-- Settles O22: the decoder finds the symbol by the step's slot, and reads back upwards what the loop emitted
downwards. -/
theorem decgetInvertsEncput : Obligations.DecgetInvertsEncput := by
  intro s t u l l' sym _ htables hcumv hsymv hm _ hlow hhigh ht hfault hl' hm' hcum' hlut' hstate' hroom hsize hbytes
  obtain ⟨k, hn, hf, hk, ht', hstep⟩ := encput_eq_next htables hcumv hsymv hlow hhigh ht hfault
  have hwptr : t.wptr = s.wptr - BitVec.ofNat 32 k := by rw [ht']; rfl
  have hdown : t.wptr.toNat = s.wptr.toNat - k := by bv_omega
  have hcount : s.wptr.toNat - t.wptr.toNat = k := by omega
  rw [hcount] at hroom hbytes
  have hholds : HoldsStep u sym (s.state.toNat / 256 ^ k) :=
    ⟨hcum' ▸ hn, hcum' ▸ hlut', hcum' ▸ hf, by rw [hcum', hstate', hstep]⟩
  have hemitted : ∀ i, i < k →
      readByte u.wmem (u.rptr.toNat + i) = BitVec.ofNat 8 (s.state.toNat / 256 ^ (k - (i + 1))) := fun i hi => by
    rw [hbytes i hi, hdown, ht']
    exact readByte_emitDown_up hi hk
  rw [hwptr, sub_sub_cancel]
  exact exec_completes hl' (decgetRule_of_emitted hholds hm' hroom hsize hlow hhigh hemitted)

end Sys2Proof.Claims
end

section
/-! PROOF. The steps of a composite command are the commands issued one after the other (43_block_codec.md R181,
R184): no rule reads or writes the handshake, so completing a step before the next one changes nothing but the
handshake. -/

namespace Sys2Proof.Claims

open Sys2Proof.Machine

/-! ### The handshake -/

/-- The state with another handshake: DONE, FAULT and the latch. -/
def withHandshake (d : Bool) (f : Option FaultCode) (l : Option Latch) (s : State) : State :=
  { s with done := d, fault := f, latch := l }

theorem completed_eq_withHandshake (s : State) : completed s = withHandshake true s.fault none s := rfl

/-- A rule that neither reads nor writes the handshake. -/
def HandshakeBlind (r : State → CmdResult) : Prop :=
  ∀ d f l s, r (withHandshake d f l s) = (r s).andThen fun u => .done (withHandshake d f l u)

theorem HandshakeBlind.keeps_handshake {r : State → CmdResult} (hr : HandshakeBlind r) {s u : State}
    (h : r s = .done u) : u = withHandshake s.done s.fault s.latch u := by
  have hs := hr s.done s.fault s.latch s
  rw [h, andThen_done] at hs
  exact CmdResult.done.inj (h.symm.trans hs)

theorem HandshakeBlind.keeps_fault {r : State → CmdResult} (hr : HandshakeBlind r) {s u : State} (h : r s = .done u) :
    u.fault = s.fault := by
  rw [hr.keeps_handshake h]
  rfl

/-- On a completed state the rule does what it does on the state, and completing it shows. -/
theorem HandshakeBlind.completed_eq_done_iff {r : State → CmdResult} (hr : HandshakeBlind r) {s v : State} :
    r (completed s) = .done v ↔ ∃ u, r s = .done u ∧ v = completed u := by
  rw [completed_eq_withHandshake, hr, andThen_eq_done]
  refine exists_congr fun u => and_congr_right fun hu => ?_
  rw [completed_eq_withHandshake u, hr.keeps_fault hu, CmdResult.done.injEq, eq_comm]

theorem HandshakeBlind.andThen {r k : State → CmdResult} (hr : HandshakeBlind r) (hk : HandshakeBlind k) :
    HandshakeBlind fun s => (r s).andThen k := by
  intro d f l s
  simp only [hr d f l s]
  cases r s with
  | done u => exact hk d f l u
  | raised c info => rfl
  | stuck p => rfl

/-- A check of the rule that the handshake has no part in. -/
theorem HandshakeBlind.guard {p : State → Prop} [DecidablePred p] {r : State → CmdResult} {c : FaultCode} {info : Word}
    (hp : ∀ d f l s, p (withHandshake d f l s) ↔ p s) (hr : HandshakeBlind r) :
    HandshakeBlind fun s => if p s then .raised c info else r s := by
  intro d f l s
  by_cases h : p s
  · simp [hp, h]
  · simp [hp, h, hr d f l s]

/-! ### The rules -/

theorem handshakeBlind_countRule (src len : Nat) : HandshakeBlind (countRule src len) := by
  intro d f l s
  dsimp only [countRule, withHandshake]
  split <;> rfl

theorem handshakeBlind_normRule : HandshakeBlind normRule := by
  intro d f l s
  dsimp only [normRule, withHandshake]
  split
  · rfl
  · split <;> rfl

theorem handshakeBlind_symtabRule : HandshakeBlind symtabRule := by
  intro d f l s
  dsimp only [symtabRule, withHandshake]
  split
  · rfl
  · split <;> rfl

theorem handshakeBlind_lutgenRule : HandshakeBlind lutgenRule := by
  intro d f l s
  dsimp only [lutgenRule, withHandshake]
  split <;> rfl

theorem handshakeBlind_encinitRule (hi lim : Word) : HandshakeBlind (encinitRule hi lim) := by
  intro d f l s
  dsimp only [encinitRule, withHandshake]
  split_ifs <;> rfl

theorem handshakeBlind_encputRule (sym : Byte) : HandshakeBlind (encputRule sym) := by
  intro d f l s
  dsimp only [encputRule, withHandshake]
  split_ifs
  · rfl
  · rfl
  · rfl
  · split <;> rfl

theorem handshakeBlind_encflushRule : HandshakeBlind encflushRule := by
  intro d f l s
  dsimp only [encflushRule, withHandshake]
  split_ifs <;> rfl

theorem handshakeBlind_decinitRule (src len : Word) : HandshakeBlind (decinitRule src len) := by
  intro d f l s
  dsimp only [decinitRule, withHandshake]
  split_ifs <;> rfl

theorem handshakeBlind_decgetRule : HandshakeBlind decgetRule := by
  intro d f l s
  dsimp only [decgetRule, withHandshake, decSymbol]
  split_ifs
  · rfl
  · rfl
  · rfl
  · split <;> rfl

theorem handshakeBlind_expandRule (src n dst : Nat) : HandshakeBlind (expandRule src n dst) := by
  intro d f l s
  dsimp only [expandRule, withHandshake]
  split_ifs <;> rfl

theorem handshakeBlind_packRule (src nb dst : Nat) : HandshakeBlind (packRule src nb dst) := by
  intro d f l s
  dsimp only [packRule, withHandshake]
  split_ifs
  · rfl
  · rfl
  · rfl
  · split <;> rfl

theorem handshakeBlind_stcntRule (dst k : Nat) : HandshakeBlind (stcntRule dst k) := by
  intro d f l s
  dsimp only [stcntRule, withHandshake]
  split_ifs <;> rfl

theorem handshakeBlind_ldcntRule (src k : Nat) : HandshakeBlind (ldcntRule src k) := by
  intro d f l s
  dsimp only [ldcntRule, withHandshake]
  split_ifs <;> rfl

/-! ### The composites -/

theorem handshakeBlind_encputsDown (src n : Nat) : HandshakeBlind (encputsDown src n) := by
  induction n with
  | zero => exact fun _ _ _ _ => rfl
  | succ k ih =>
    intro d f l s
    exact (handshakeBlind_encputRule (readByte s.wmem (src + k))).andThen ih d f l s

theorem handshakeBlind_encodeSteps (src len : Nat) (hi lim : Word) : HandshakeBlind (encodeSteps src len hi lim) :=
  (((((handshakeBlind_countRule src len).andThen handshakeBlind_normRule).andThen handshakeBlind_symtabRule).andThen
    (handshakeBlind_encinitRule hi lim)).andThen (handshakeBlind_encputsDown src len)).andThen
      handshakeBlind_encflushRule

theorem handshakeBlind_encodeRule (src len hi lim : Word) : HandshakeBlind (encodeRule src len hi lim) :=
  .guard (fun _ _ _ _ => Iff.rfl) <| .guard (fun _ _ _ _ => Iff.rfl) <| .guard (fun _ _ _ _ => Iff.rfl) <|
    handshakeBlind_encodeSteps src.toNat len.toNat hi lim

theorem handshakeBlind_decgetsUp (n dst : Nat) : HandshakeBlind (decgetsUp n dst) := by
  induction n generalizing dst with
  | zero => exact fun _ _ _ _ => rfl
  | succ k ih =>
    exact handshakeBlind_decgetRule.andThen fun d f l t => ih (dst + 1) d f l (storeResult dst t)

theorem handshakeBlind_decodeSymbols (src len : Word) (dst cap : Nat) :
    HandshakeBlind (decodeSymbols src len dst cap) := by
  intro d f l s
  have hget := ((handshakeBlind_decinitRule src len).andThen (handshakeBlind_decgetsUp s.total.toNat dst)).andThen
    (k := fun t => .done { t with outlen := s.total }) (fun _ _ _ _ => rfl) d f l s
  simp only [decodeSymbols]
  rw [apply_ite (CmdResult.andThen · _), ← hget]
  rfl

theorem handshakeBlind_decodeSteps (src len : Word) (dst cap : Nat) : HandshakeBlind (decodeSteps src len dst cap) :=
  ((handshakeBlind_normRule.andThen handshakeBlind_symtabRule).andThen handshakeBlind_lutgenRule).andThen
    (handshakeBlind_decodeSymbols src len dst cap)

theorem handshakeBlind_decodeRule (src len dst cap : Word) : HandshakeBlind (decodeRule src len dst cap) :=
  .guard (fun _ _ _ _ => Iff.rfl) <| .guard (fun _ _ _ _ => Iff.rfl) <| .guard (fun _ _ _ _ => Iff.rfl) <|
    handshakeBlind_decodeSteps src len dst.toNat cap.toNat

theorem handshakeBlind_ruleOf (i : Instr) (o : Operands) : HandshakeBlind (ruleOf i o) :=
  match i with
  | .nop => fun _ _ _ _ => rfl
  | .count => handshakeBlind_countRule _ _
  | .norm => handshakeBlind_normRule
  | .symtab => handshakeBlind_symtabRule
  | .lutgen => handshakeBlind_lutgenRule
  | .encinit => handshakeBlind_encinitRule _ _
  | .encput sym => handshakeBlind_encputRule sym
  | .encflush => handshakeBlind_encflushRule
  | .decinit => handshakeBlind_decinitRule _ _
  | .decget => handshakeBlind_decgetRule
  | .encode => handshakeBlind_encodeRule _ _ _ _
  | .decode => handshakeBlind_decodeRule _ _ _ _
  | .expand => handshakeBlind_expandRule _ _ _
  | .pack => handshakeBlind_packRule _ _ _
  | .stcnt => handshakeBlind_stcntRule _ _
  | .ldcnt => handshakeBlind_ldcntRule _ _

/-! ### Commands issued one after the other -/

/-- A command that starts with no fault and ends with none is its rule, then completion. -/
theorem exec_next_fault_none_iff {i : Instr} {s t : State} {l : Latch} (hl : s.latch = some l) (hs : s.fault = none) :
    (exec i s = .next t ∧ t.fault = none) ↔ ∃ u, ruleOf i l.ops s = .done u ∧ t = completed u := by
  constructor
  · rintro ⟨ht, hfault⟩
    obtain ⟨l', u, hl', hu, rfl⟩ := exec_eq_next_of_fault_none ht hfault
    obtain rfl : l' = l := Option.some.inj (hl'.symm.trans hl)
    exact ⟨u, hu, rfl⟩
  · rintro ⟨u, hu, rfl⟩
    exact ⟨exec_completes hl hu, ((handshakeBlind_ruleOf i l.ops).keeps_fault hu).trans hs⟩

/-- The state in which the command is latched. -/
def issued (i : Instr) (o : Operands) (s : State) : State := { s with latch := some ⟨encodeWord i, o⟩ }

theorem issued_eq_withHandshake (i : Instr) (o : Operands) (s : State) :
    issued i o s = withHandshake s.done s.fault (some ⟨encodeWord i, o⟩) s := rfl

theorem completes_eq_some_iff_exec {i : Instr} {o : Operands} {s t : State} :
    completes i o s = some t ↔
      exec i (issued i o s) = .next t ∧ t.fault = none := by
  rw [completes, ← issued]
  cases exec i (issued i o s) with
  | next u =>
    dsimp only
    split_ifs with hu
    · simp only [Option.some.injEq, Host.Outcome.next.injEq]
      exact ⟨fun h => ⟨h, h ▸ hu⟩, And.left⟩
    · simp only [Host.Outcome.next.injEq, false_iff]
      rintro ⟨rfl, h⟩
      exact hu h
  | fault c => simp
  | refused r => simp

/-- The handshake that issuing the command leaves is overwritten by its completion. -/
theorem completes_eq_some_iff {i : Instr} {o : Operands} {s t : State} (hs : s.fault = none) :
    completes i o s = some t ↔ ∃ u, ruleOf i o s = .done u ∧ t = completed u := by
  rw [completes_eq_some_iff_exec, exec_next_fault_none_iff (s := issued i o s) rfl hs, issued_eq_withHandshake,
    handshakeBlind_ruleOf i o]
  cases hr : ruleOf i o s with
  | done u =>
    rw [(handshakeBlind_ruleOf i o).keeps_handshake hr]
    simp only [andThen_done, CmdResult.done.injEq, exists_eq_left']
    rfl
  | raised c info => simp
  | stuck p => simp

/-- The rules of some commands, one after the other. -/
def runSteps (cs : List (Instr × Operands)) (s : State) : CmdResult :=
  match cs with
  | [] => .done s
  | c :: rest => (ruleOf c.1 c.2 s).andThen (runSteps rest)

theorem andThen_assoc (r : CmdResult) (j k : State → CmdResult) :
    (r.andThen j).andThen k = r.andThen fun s => (j s).andThen k := by
  cases r <;> rfl

@[simp] theorem andThen_done_right (r : CmdResult) : r.andThen .done = r := by
  cases r <;> rfl

theorem runSteps_singleton (c : Instr × Operands) (s : State) : runSteps [c] s = ruleOf c.1 c.2 s :=
  andThen_done_right _

theorem runSteps_append (cs ds : List (Instr × Operands)) (s : State) :
    runSteps (cs ++ ds) s = (runSteps cs s).andThen (runSteps ds) := by
  induction cs generalizing s with
  | nil => rfl
  | cons c rest ih => rw [List.cons_append, runSteps, runSteps, andThen_assoc, funext ih]

theorem handshakeBlind_runSteps (cs : List (Instr × Operands)) : HandshakeBlind (runSteps cs) := by
  induction cs with
  | nil => exact fun _ _ _ _ => rfl
  | cons c rest ih => exact (handshakeBlind_ruleOf c.1 c.2).andThen ih

/-- After a completed command, a command is its rule on the state the first one's rule left. -/
theorem completes_completed_eq_some_iff {i : Instr} {o : Operands} {s t : State} (hs : s.fault = none) :
    completes i o (completed s) = some t ↔ ∃ u, ruleOf i o s = .done u ∧ t = completed u := by
  simp only [completes_eq_some_iff (s := completed s) hs, (handshakeBlind_ruleOf i o).completed_eq_done_iff]
  constructor
  · rintro ⟨-, ⟨u, hu, rfl⟩, rfl⟩
    exact ⟨u, hu, rfl⟩
  · rintro ⟨u, hu, rfl⟩
    exact ⟨completed u, ⟨u, hu, rfl⟩, rfl⟩

theorem completesAll_cons (c : Instr × Operands) (rest : List (Instr × Operands)) (s : State) :
    completesAll (c :: rest) s = (completes c.1 c.2 s).bind (completesAll rest) := by
  rw [completesAll]
  cases completes c.1 c.2 s <;> rfl

theorem completesAll_completed_eq_some_iff {cs : List (Instr × Operands)} {s t : State} (hs : s.fault = none) :
    completesAll cs (completed s) = some t ↔ ∃ u, runSteps cs s = .done u ∧ t = completed u := by
  induction cs generalizing s with
  | nil => simp [completesAll, runSteps, eq_comm]
  | cons c rest ih =>
    have hfault : ∀ {u}, ruleOf c.1 c.2 s = .done u → u.fault = none := fun hu =>
      ((handshakeBlind_ruleOf c.1 c.2).keeps_fault hu).trans hs
    simp only [completesAll_cons, Option.bind_eq_some_iff, completes_completed_eq_some_iff hs, runSteps,
      andThen_eq_done]
    constructor
    · rintro ⟨-, ⟨u, hu, rfl⟩, hrest⟩
      obtain ⟨w, hw, rfl⟩ := (ih (hfault hu)).1 hrest
      exact ⟨w, ⟨u, hu, hw⟩, rfl⟩
    · rintro ⟨w, ⟨u, hu, hw⟩, rfl⟩
      exact ⟨completed u, ⟨u, hu, rfl⟩, (ih (hfault hu)).2 ⟨w, hw, rfl⟩⟩

/-- The first command does not see the handshake it starts with. -/
theorem completesAll_cons_eq_some_iff {c : Instr × Operands} {rest : List (Instr × Operands)} {s t : State}
    (hs : s.fault = none) :
    completesAll (c :: rest) s = some t ↔ ∃ u, runSteps (c :: rest) s = .done u ∧ t = completed u := by
  have hfirst : completes c.1 c.2 s = completes c.1 c.2 (completed s) := by
    ext t
    rw [completes_eq_some_iff hs, completes_completed_eq_some_iff hs]
  rw [← completesAll_completed_eq_some_iff hs, completesAll_cons, completesAll_cons, hfirst]

/-- The DECGETs and their stores, from a completed state on. -/
theorem decgetAll_completed_eq_some_iff {n dst : Nat} {o : Operands} {s t : State} (hs : s.fault = none) :
    decgetAll n dst o (completed s) = some t ↔ ∃ u, decgetsUp n dst s = .done u ∧ t = completed u := by
  induction n generalizing dst s with
  | zero => simp [decgetAll, decgetsUp, eq_comm]
  | succ k ih =>
    have hfirst : decgetAll (k + 1) dst o (completed s) =
        (completes .decget o (completed s)).bind fun v => decgetAll k (dst + 1) o (storeResult dst v) := by
      rw [decgetAll]
      cases completes .decget o (completed s) <;> rfl
    have hfault : ∀ {u}, decgetRule s = .done u → (storeResult dst u).fault = none := fun hu =>
      (handshakeBlind_decgetRule.keeps_fault hu).trans hs
    simp only [hfirst, Option.bind_eq_some_iff, completes_completed_eq_some_iff hs, decgetsUp, andThen_eq_done]
    constructor
    · rintro ⟨-, ⟨u, hu, rfl⟩, hrest⟩
      obtain ⟨w, hw, rfl⟩ := (ih (hfault hu)).1 hrest
      exact ⟨w, ⟨u, hu, hw⟩, rfl⟩
    · rintro ⟨w, ⟨u, hu, hw⟩, rfl⟩
      exact ⟨completed u, ⟨u, hu, rfl⟩, (ih (hfault hu)).2 ⟨w, hw, rfl⟩⟩

end Sys2Proof.Claims
end

section
/-! PROOF. DECODE is its steps (43_block_codec.md R183, R184). -/

namespace Sys2Proof.Claims

open Sys2Proof.Machine

theorem inRange_eq_true_iff {size a n : Nat} : inRange size a n = true ↔ a + n ≤ size := by simp [inRange]

theorem overlaps_eq_true_iff {a n b m : Nat} : overlaps a n b m = true ↔ meets a n b m := by
  simp [overlaps, and_assoc]

theorem decodeRule_of_operandsOk {s : State} {o : Operands} (h : decodeOperandsOk s o) :
    decodeRule o.a0 o.a1 o.a2 o.a3 s = decodeSteps o.a0 o.a1 o.a2.toNat o.a3.toNat s := by
  obtain ⟨hsrc, hdst, hmeets⟩ := h
  simp [decodeRule, inRange_eq_true_iff.2 hsrc, inRange_eq_true_iff.2 hdst, overlaps_eq_true_iff, hmeets]

/-- The steps that rebuild the model from the counts. -/
def rebuildSteps (o : Operands) : List (Instr × Operands) := [(.norm, o), (.symtab, o), (.lutgen, o)]

theorem decodeSteps_eq_runSteps (o : Operands) (s : State) :
    decodeSteps o.a0 o.a1 o.a2.toNat o.a3.toNat s =
      (runSteps (rebuildSteps o) s).andThen (decodeSymbols o.a0 o.a1 o.a2.toNat o.a3.toNat) := by
  simp only [decodeSteps, rebuildSteps, runSteps, andThen_assoc, andThen_done]
  rfl

theorem completesAll_rebuild_decinit_eq_some_iff {o : Operands} {s t : State} (hs : s.fault = none) :
    completesAll [(.norm, o), (.symtab, o), (.lutgen, o), (.decinit, o)] s = some t ↔
      ∃ a b, runSteps (rebuildSteps o) s = .done a ∧ decinitRule o.a0 o.a1 a = .done b ∧ t = completed b := by
  rw [completesAll_cons_eq_some_iff hs]
  change (∃ u, runSteps (rebuildSteps o ++ [(.decinit, o)]) s = .done u ∧ t = completed u) ↔ _
  simp only [runSteps_append, andThen_eq_done, runSteps_singleton, ruleOf]
  constructor
  · rintro ⟨b, ⟨a, ha, hb⟩, rfl⟩
    exact ⟨a, b, ha, hb, rfl⟩
  · rintro ⟨a, b, ha, hb, rfl⟩
    exact ⟨b, ⟨a, ha, hb⟩, rfl⟩

theorem fault_of_rebuild_decinit {o : Operands} {s a b : State} (hs : s.fault = none)
    (ha : runSteps (rebuildSteps o) s = .done a) (hb : decinitRule o.a0 o.a1 a = .done b) : b.fault = none :=
  ((handshakeBlind_decinitRule o.a0 o.a1).keeps_fault hb).trans
    (((handshakeBlind_runSteps (rebuildSteps o)).keeps_fault ha).trans hs)

theorem decinitRule_keeps_total {s u : State} {src len : Word} (h : decinitRule src len s = .done u) :
    u.total = s.total := by
  rw [decinitRule] at h
  split_ifs at h
  cases h
  rfl

theorem decodeSymbols_of_cap_lt {s : State} {src len : Word} {dst cap : Nat} (h : cap < s.total.toNat) :
    decodeSymbols src len dst cap s = .raised .outOverflow s.total := if_pos h

theorem decodeSymbols_eq_done_iff {s t : State} {src len : Word} {dst cap : Nat} :
    decodeSymbols src len dst cap s = .done t ↔
      s.total.toNat ≤ cap ∧ ∃ u v, decinitRule src len s = .done u ∧ decgetsUp s.total.toNat dst u = .done v ∧
        t = { v with outlen := s.total } := by
  obtain hcap | hcap := Nat.lt_or_ge cap s.total.toNat
  · rw [decodeSymbols_of_cap_lt hcap]
    simp [Nat.not_le.2 hcap]
  · rw [decodeSymbols, if_neg (Nat.not_lt.2 hcap)]
    simp only [andThen_eq_done, CmdResult.done.injEq]
    constructor
    · rintro ⟨v, ⟨u, hu, hv⟩, rfl⟩
      exact ⟨hcap, u, v, hu, hv, rfl⟩
    · rintro ⟨-, u, v, hu, hv, rfl⟩
      exact ⟨v, ⟨u, hu, hv⟩, rfl⟩

/-- Settles O27: DECODE's rule is the rules of its steps, and issuing those one after the other changes only the
handshake. -/
theorem decodeRunsItsSteps : Obligations.DecodeRunsItsSteps := by
  intro s l hl hs hok
  have hrule := (decodeRule_of_operandsOk hok).trans (decodeSteps_eq_runSteps l.ops s)
  refine ⟨fun t => ?_, fun u hu hcap => ?_⟩
  · rw [exec_next_fault_none_iff hl hs]
    simp only [ruleOf, hrule, completesAll_rebuild_decinit_eq_some_iff hs, andThen_eq_done, decodeSymbols_eq_done_iff]
    constructor
    · rintro ⟨-, ⟨a, ha, hcap, b, c, hb, hc, rfl⟩, rfl⟩
      have htotal := decinitRule_keeps_total hb
      have hfault := fault_of_rebuild_decinit hs ha hb
      refine ⟨completed b, completed c, ⟨a, b, ha, hb, rfl⟩, ?_⟩
      exact ⟨htotal ▸ hcap, (decgetAll_completed_eq_some_iff hfault).2 ⟨c, htotal ▸ hc, rfl⟩, htotal ▸ rfl⟩
    · rintro ⟨-, v, ⟨a, b, ha, hb, rfl⟩, hcap, hv, rfl⟩
      have htotal : b.total = a.total := decinitRule_keeps_total hb
      obtain ⟨c, hc, rfl⟩ := (decgetAll_completed_eq_some_iff (fault_of_rebuild_decinit hs ha hb)).1 hv
      exact ⟨_, ⟨a, ha, htotal ▸ hcap, b, c, hb, htotal ▸ hc, rfl⟩, htotal ▸ rfl⟩
  · obtain ⟨a, ha, rfl⟩ := (completesAll_cons_eq_some_iff hs).1 hu
    have hraised : ruleOf .decode l.ops s = .raised .outOverflow a.total :=
      hrule.trans ((congrArg (CmdResult.andThen · _) ha).trans (decodeSymbols_of_cap_lt hcap))
    exact ⟨_, exec_faults_abortive hl hraised rfl, rfl, rfl, rfl⟩

end Sys2Proof.Claims
end

section
/-! PROOF. The model that NORM and SYMTAB rebuild from the counts (40_frequency_model.md R119, 41_symbol_tables.md
R131): the two steps every composite shares, which never fault where the total fits. -/

namespace Sys2Proof.Claims

open Sys2Proof.Machine

/-- CUM as NORM stores it. -/
def modelCum (cnt : Vector Word 256) : Vector Word 257 := storeCum (normalized cnt)

theorem storedNormal_modelCum {cnt : Vector Word 256} (h : 0 < countSum cnt 256) : StoredNormal (modelCum cnt) :=
  ⟨scanned cnt, normalTable_scanned h, by rw [modelCum, normalized, if_neg (Nat.ne_of_gt h)]⟩

theorem entry_modelCum_of_total_zero {cnt : Vector Word 256} (h : countSum cnt 256 = 0) {i : Nat} (hi : i ≤ 256) :
    entry (modelCum cnt) i = 0 := by
  rw [modelCum, normalized, if_pos h, storeCum, entry_mapTable _ _ _ (by omega), entry_tabulate _ _ (by omega)]
  rfl

/-- RANGE is never raised after NORM (R131). -/
theorem slotOk_modelCum (cnt : Vector Word 256) {i : Nat} (hi : i < 256) : slotOk (modelCum cnt) i := by
  obtain h0 | hpos := Nat.eq_zero_or_pos (countSum cnt 256)
  · rw [slotOk, startOf, freq, entry_modelCum_of_total_zero h0 (by omega), entry_modelCum_of_total_zero h0 (by omega)]
    decide
  · obtain ⟨hend, hscale⟩ := (storedNormal_modelCum hpos).startOf_add_freq hi
    exact ⟨by omega, by omega⟩

theorem countSum_pos_of_entry {cnt : Vector Word 256} {i : Nat} (hi : i < 256) (h : entry cnt i ≠ 0) :
    0 < countSum cnt 256 := by
  have hle := Finset.single_le_sum (f := fun j => (entry cnt j).toNat) (fun _ _ => Nat.zero_le _)
    (Finset.mem_range.2 hi)
  rw [← countSum_eq_sum_range cnt (le_refl 256)] at hle
  exact Nat.lt_of_lt_of_le (Nat.pos_of_ne_zero fun h0 => h (BitVec.eq_of_toNat_eq h0)) hle

/-- A counted symbol has a width. -/
theorem freq_modelCum_pos {cnt : Vector Word 256} {i : Nat} (hi : i < 256) (h : entry cnt i ≠ 0) :
    1 ≤ freq (modelCum cnt) i := by
  have hpos := countSum_pos_of_entry hi h
  obtain ⟨hend, -⟩ := (storedNormal_modelCum hpos).startOf_add_freq hi
  obtain ⟨-, -, -, hcounted, -⟩ := storeCum_scanned_postconditions hpos
  have hlt : startOf (modelCum cnt) i < endOf (modelCum cnt) i := by
    rw [modelCum, normalized, if_neg (Nat.ne_of_gt hpos)]
    exact (hcounted i hi).1 h
  omega

/-- The state after NORM and SYMTAB. -/
def rebuilt (s : State) : State :=
  { dropTables s with
    cum := modelCum s.cnt
    total := BitVec.ofNat 32 (countSum s.cnt 256)
    cumv := true
    symtab := buildSymtab (modelCum s.cnt)
    symv := true }

theorem normRule_andThen_symtabRule {s : State} (h : countSum s.cnt 256 ≤ 0xFFFFFFFF) :
    (normRule s).andThen symtabRule = .done (rebuilt s) := by
  rw [normRule_done h, andThen_done]
  exact symtabRule_done rfl fun i hi => slotOk_modelCum s.cnt hi

theorem cumCoherent_rebuilt {s : State} (h : countSum s.cnt 256 ≤ 0xFFFFFFFF) : (rebuilt s).cumCoherent := by
  refine ⟨?_, ?_, normalized s.cnt, normalize_eq_ok s.cnt, rfl⟩
  · exact (rawTotal_eq_countSum s.cnt).trans_le h
  · show (BitVec.ofNat 32 (countSum s.cnt 256)).toNat = rawTotal s.cnt
    rw [rawTotal_eq_countSum, BitVec.toNat_ofNat, Nat.mod_eq_of_lt (by omega)]

end Sys2Proof.Claims
end

section
/-! PROOF. ENCPUTs one after the other (42_rans_codec.md R152, R153): what any number of them leaves alone. -/

namespace Sys2Proof.Claims

open Sys2Proof.Machine

/-- ENCPUTs of the symbols, in the order of the list. -/
def putAll (bs : List Byte) (s : State) : CmdResult :=
  match bs with
  | [] => .done s
  | b :: rest => (encputRule b s).andThen (putAll rest)

theorem runSteps_map_encput (bs : List Byte) (o : Operands) (s : State) :
    runSteps (bs.map fun b => (.encput b, o)) s = putAll bs s := by
  induction bs generalizing s with
  | nil => rfl
  | cons b rest ih =>
    rw [List.map_cons, runSteps, putAll, funext ih]
    rfl

/-- What ENCPUTs leave alone: all but STATE, WPTR and the bytes the latter has come down over, within the region. -/
structure PutFrame (s u : State) : Prop where
  fields : u = { s with wmem := u.wmem, wptr := u.wptr, state := u.state }
  limit : s.wlim.toNat ≤ s.wptr.toNat → s.wlim.toNat ≤ u.wptr.toNat
  down : u.wptr.toNat ≤ s.wptr.toNat
  memory : sameOutside s.wmem u.wmem u.wptr.toNat s.wptr.toNat

theorem PutFrame.refl (s : State) : PutFrame s s := ⟨rfl, id, le_refl _, fun _ _ => rfl⟩

theorem PutFrame.wlim_eq {s u : State} (h : PutFrame s u) : u.wlim = s.wlim := by rw [h.fields]

theorem PutFrame.trans {s u v : State} (h : PutFrame s u) (h' : PutFrame u v) : PutFrame s v where
  fields := by rw [h'.fields, h.fields]
  limit hs := h.wlim_eq ▸ h'.limit (h.wlim_eq ▸ h.limit hs)
  down := h'.down.trans h.down
  memory a ha := by
    have hdown := h.down
    have hdown' := h'.down
    rw [h'.memory a (by omega), h.memory a (by omega)]

theorem encputRule_done_limit {s u : State} {sym : Byte} (h : encputRule sym s = .done u) :
    s.wlim.toNat ≤ u.wptr.toNat := by
  rw [encputRule] at h
  split_ifs at h with hm hthr hregion
  split at h
  · cases h
  · next e he =>
    cases h
    obtain ⟨hlim, -⟩ := regionOk_eq_true_iff.1 (Bool.not_eq_false _ ▸ hregion)
    obtain ⟨k, hroom, -, hw, -⟩ := encRenorm_eq_ok he
    have := s.wptr.isLt
    show _ ≤ (BitVec.ofNat 32 e.wptr).toNat
    rw [BitVec.toNat_ofNat, Nat.mod_eq_of_lt (by omega)]
    omega

theorem toNat_wptr_putState {s : State} (d : SymDesc) {k : Nat} (h : k ≤ s.wptr.toNat) :
    (putState d k s).wptr.toNat = s.wptr.toNat - k := by
  simp only [putState]
  bv_omega

theorem encputRule_frame {s u : State} {sym : Byte} (h : encputRule sym s = .done u) : PutFrame s u := by
  have hlimit := encputRule_done_limit h
  obtain ⟨k, -, -, hk, rfl⟩ := encputRule_eq_done h
  have hwptr := toNat_wptr_putState (entry s.symtab sym.toNat) hk
  exact ⟨rfl, fun _ => hlimit, by omega, fun a ha => readByte_emitDown_outside (hwptr ▸ ha) hk⟩

theorem putAll_frame {bs : List Byte} {s u : State} (h : putAll bs s = .done u) : PutFrame s u := by
  induction bs generalizing s with
  | nil => exact CmdResult.done.inj h ▸ .refl s
  | cons b rest ih =>
    obtain ⟨v, hv, hrest⟩ := andThen_eq_done.1 h
    exact (encputRule_frame hv).trans (ih hrest)

end Sys2Proof.Claims
end

section
/-! PROOF. ENCODE is its steps (43_block_codec.md R180, R181): the output region misses the input, so the symbols of the
loop are the bytes the input held at entry. -/

namespace Sys2Proof.Claims

open Sys2Proof.Machine

/-! ### The loop -/

theorem loadBytes_succ (m : Memory) (a n : Nat) :
    loadBytes m a (n + 1) = loadBytes m a n ++ [readByte m (a + n)] := by
  simp [loadBytes, List.range_succ]

/-- The buffer misses the bytes the encoder can still write. -/
def ApartFromOutput (src n : Nat) (s : State) : Prop :=
  ∀ a, src ≤ a → a < src + n → a < s.wlim.toNat ∨ s.wptr.toNat ≤ a

theorem encputsDown_eq_putAll {m : Memory} {src n : Nat} {s : State} (hapart : ApartFromOutput src n s)
    (hlim : s.wlim.toNat ≤ s.wptr.toNat) (hm : ∀ a, src ≤ a → a < src + n → readByte s.wmem a = readByte m a) :
    encputsDown src n s = putAll (loadBytes m src n).reverse s := by
  induction n generalizing s with
  | zero => rfl
  | succ k ih =>
    rw [encputsDown, hm (src + k) (by omega) (by omega), loadBytes_succ, List.reverse_append, List.reverse_singleton,
      List.singleton_append, putAll]
    cases hput : encputRule (readByte m (src + k)) s with
    | done u =>
      have hframe := encputRule_frame hput
      have hdown := hframe.down
      have hlimit := hframe.limit hlim
      refine ih (fun a h1 h2 => ?_) (by rwa [hframe.wlim_eq]) fun a h1 h2 => ?_
      · have := hapart a h1 (by omega)
        rw [hframe.wlim_eq]
        omega
      · have := hapart a h1 (by omega)
        rw [hframe.memory a (by omega), hm a h1 (by omega)]
    | raised c info => rfl
    | stuck p => rfl

/-! ### The steps before the loop -/

/-- COUNT, NORM, SYMTAB and ENCINIT as ENCODE issues them. -/
def openSteps (o : Operands) : List (Instr × Operands) :=
  [(.count, o), (.norm, o), (.symtab, o), (.encinit, ⟨o.a2, o.a3, 0, 0⟩)]

/-- ENCODE's input. -/
def inputBytes (o : Operands) (s : State) : List Byte := loadBytes s.wmem o.a0.toNat o.a1.toNat

/-- The state after COUNT. -/
def counted (o : Operands) (s : State) : State := { dropTables s with cnt := tally (inputBytes o s) }

theorem countSum_counted (o : Operands) (s : State) : countSum (counted o s).cnt 256 = o.a1.toNat :=
  (countSum_tally _ (by simpa [inputBytes] using o.a1.isLt)).trans (loadBytes_length ..)

theorem countSum_counted_le (o : Operands) (s : State) : countSum (counted o s).cnt 256 ≤ 0xFFFFFFFF := by
  have := o.a1.isLt
  rw [countSum_counted]
  omega

/-- The state in which ENCODE's loop starts. -/
def opened (o : Operands) (s : State) : State :=
  { rebuilt (counted o s) with
    state := 0x00800000
    wend := o.a2
    wptr := o.a2
    wlim := o.a3
    mode := .enc }

theorem runSteps_openSteps {o : Operands} {s : State} (h : encodeOperandsOk s o) :
    runSteps (openSteps o) s = .done (opened o s) := by
  obtain ⟨hsrc, hlim, hsize, -⟩ := h
  have hcount : countRule o.a0.toNat o.a1.toNat s = .done (counted o s) := countRule_done hsrc
  have hmodel : (normRule (counted o s)).andThen symtabRule = .done (rebuilt (counted o s)) :=
    normRule_andThen_symtabRule (countSum_counted_le o s)
  have hinit : encinitRule o.a2 o.a3 (rebuilt (counted o s)) = .done (opened o s) := encinitRule_done rfl hlim hsize
  simp only [openSteps, runSteps, ruleOf, hcount, andThen_done]
  rw [← andThen_assoc, hmodel, andThen_done, hinit, andThen_done]

/-! ### The whole command -/

theorem encodeRule_of_operandsOk {s : State} {o : Operands} (h : encodeOperandsOk s o) :
    encodeRule o.a0 o.a1 o.a2 o.a3 s = encodeSteps o.a0.toNat o.a1.toNat o.a2 o.a3 s := by
  obtain ⟨hsrc, hlim, hsize, hmeets⟩ := h
  simp [encodeRule, inRange_eq_true_iff.2 hsrc, regionOk_eq_true_iff.2 ⟨hlim, hsize⟩, overlaps_eq_true_iff, hmeets]

theorem operandsOk_of_encodeRule_done {s u : State} {o : Operands} (h : encodeRule o.a0 o.a1 o.a2 o.a3 s = .done u) :
    encodeOperandsOk s o := by
  rw [encodeRule] at h
  split_ifs at h with hsrc hregion hover
  rw [Bool.not_eq_true, Bool.not_eq_false', inRange_eq_true_iff] at hsrc
  rw [Bool.not_eq_true, Bool.not_eq_false', regionOk_eq_true_iff] at hregion
  rw [overlaps_eq_true_iff] at hover
  exact ⟨hsrc, hregion.1, hregion.2, hover⟩

theorem encodeRule_eq_runSteps {s : State} {o : Operands} (h : encodeOperandsOk s o) :
    encodeRule o.a0 o.a1 o.a2 o.a3 s =
      ((runSteps (openSteps o) s).andThen (putAll (inputBytes o s).reverse)).andThen encflushRule := by
  have hloop : encputsDown o.a0.toNat o.a1.toNat (opened o s) = putAll (inputBytes o s).reverse (opened o s) := by
    obtain ⟨-, hlim, -, hmeets⟩ := h
    refine encputsDown_eq_putAll (fun a h1 h2 => ?_) hlim fun a h1 h2 => rfl
    show a < o.a3.toNat ∨ o.a2.toNat ≤ a
    unfold meets at hmeets
    omega
  have hsteps : encodeSteps o.a0.toNat o.a1.toNat o.a2 o.a3 s =
      ((runSteps (openSteps o) s).andThen (encputsDown o.a0.toNat o.a1.toNat)).andThen encflushRule := by
    simp only [encodeSteps, openSteps, runSteps, ruleOf, andThen_assoc, andThen_done]
  rw [encodeRule_of_operandsOk h, hsteps, runSteps_openSteps h, andThen_done, andThen_done, hloop]

/-- Settles O26: ENCODE's rule is the rules of its steps, and issuing those one after the other changes only the
handshake. -/
theorem encodeRunsItsSteps : Obligations.EncodeRunsItsSteps := by
  intro s t l hl hs hok
  have hsteps : ruleOf .encode l.ops s = runSteps (openSteps l.ops ++
      (inputBytes l.ops s).reverse.map (fun b => (.encput b, l.ops)) ++ [(.encflush, l.ops)]) s := by
    rw [runSteps_append, runSteps_append, funext (runSteps_map_encput _ l.ops), funext (runSteps_singleton _)]
    exact encodeRule_eq_runSteps hok
  rw [exec_next_fault_none_iff hl hs, hsteps]
  exact (completesAll_cons_eq_some_iff hs).symm

end Sys2Proof.Claims
end

section
/-! PROOF. ENCODE in bounded room (43_block_codec.md R182, R187): on the model of the input's own counts every ENCPUT
keeps the encoder's bounds (42_rans_codec.md R154) and takes at most 2 bytes. -/

namespace Sys2Proof.Claims

open Sys2Proof.Machine

/-! ### The encoder between two symbols -/

/-- An encoder within R48's bounds, over a coherent model. -/
structure EncoderReady (s : State) : Prop where
  mode : s.mode = .enc
  coherent : s.cumCoherent
  symtab : s.symtab = buildSymtab s.cum
  low : 2 ^ 23 ≤ s.state.toNat
  high : s.state.toNat < 2 ^ 31
  limit : s.wlim.toNat ≤ s.wptr.toNat
  size : s.wptr.toNat ≤ s.params.wmemSize

theorem EncoderReady.entry_symtab {s : State} (h : EncoderReady s) (sym : Byte) :
    entry s.symtab sym.toNat = descriptor (startOf s.cum sym.toNat) (freq s.cum sym.toNat) := by
  rw [h.symtab, entry_buildSymtab s.cum sym.isLt]

theorem EncoderReady.storedNormal {s : State} (h : EncoderReady s) {sym : Byte} (hf : 1 ≤ freq s.cum sym.toNat) :
    StoredNormal s.cum :=
  storedNormal_of_freq h.coherent sym.isLt (Nat.ne_of_gt hf)

theorem EncoderReady.slots_le_scale {s : State} (h : EncoderReady s) {sym : Byte} (hf : 1 ≤ freq s.cum sym.toNat) :
    startOf s.cum sym.toNat + freq s.cum sym.toNat ≤ 16384 := by
  obtain ⟨hend, hscale⟩ := (h.storedNormal hf).startOf_add_freq sym.isLt
  omega

theorem EncoderReady.toNat_thr {s : State} (h : EncoderReady s) {sym : Byte} (hf : 1 ≤ freq s.cum sym.toNat) :
    (entry s.symtab sym.toNat).thr.toNat = 131072 * freq s.cum sym.toNat := by
  have := h.slots_le_scale hf
  rw [h.entry_symtab, toNat_thr_descriptor _ (by omega)]

/-- An ENCPUT of a symbol with a width that ends without a fault: the encoder stays within its bounds, at most 2 bytes
down, and holds the rANS step of the symbol. -/
theorem EncoderReady.after_put {s u : State} {sym : Byte} (h : EncoderReady s) (hf : 1 ≤ freq s.cum sym.toNat)
    (hput : encputRule sym s = .done u) :
    ∃ k, k ≤ 2 ∧ k ≤ s.wptr.toNat ∧ u = putState (entry s.symtab sym.toNat) k s ∧ EncoderReady u ∧
      u.state.toNat = ransStep (startOf s.cum sym.toNat) (freq s.cum sym.toNat) (s.state.toNat / 256 ^ k) := by
  have hlimit := encputRule_done_limit hput
  have hdown := (encputRule_frame hput).down
  have hslots := h.slots_le_scale hf
  obtain ⟨k, -, hk, hwptr, rfl⟩ := encputRule_eq_done hput
  rw [h.toNat_thr hf] at hk
  obtain ⟨hk2, hbounds⟩ := hk.bounds hf (by omega) h.low h.high
  have hstate : (putState (entry s.symtab sym.toNat) k s).state.toNat =
      ransStep (startOf s.cum sym.toNat) (freq s.cum sym.toNat) (s.state.toNat / 256 ^ k) := by
    rw [h.entry_symtab]
    exact toNat_encInsert_descriptor hf hslots hbounds
  obtain ⟨hlow, hhigh⟩ := hbounds.ransStep_bounds hf hslots
  exact ⟨k, hk2, hwptr, rfl, ⟨h.mode, h.coherent, h.symtab, hstate ▸ hlow, hstate ▸ hhigh, hlimit,
    hdown.trans h.size⟩, hstate⟩

theorem EncoderReady.exists_put {s : State} {sym : Byte} (h : EncoderReady s) (hf : 1 ≤ freq s.cum sym.toNat)
    (hroom : s.wlim.toNat + 2 ≤ s.wptr.toNat) : ∃ u, encputRule sym s = .done u := by
  have hslots := h.slots_le_scale hf
  obtain ⟨k, hk⟩ := exists_encTurns hf h.high
  obtain ⟨hk2, -⟩ := hk.bounds hf (by omega) h.low h.high
  have hthr0 : (entry s.symtab sym.toNat).thr ≠ 0 := by
    rw [h.entry_symtab, Ne, thr_descriptor_eq_zero_iff _ (by omega)]
    omega
  exact ⟨_, encputRule_done h.mode hthr0 h.limit h.size ((h.toNat_thr hf).symm ▸ hk) (by omega)⟩

/-! ### Any number of symbols -/

theorem EncoderReady.after_putAll {bs : List Byte} {s u : State} (h : EncoderReady s)
    (hf : ∀ b ∈ bs, 1 ≤ freq s.cum b.toNat) (hput : putAll bs s = .done u) : EncoderReady u := by
  induction bs generalizing s with
  | nil => exact CmdResult.done.inj hput ▸ h
  | cons b rest ih =>
    obtain ⟨hb, hrest⟩ := List.forall_mem_cons.1 hf
    obtain ⟨v, hv, hput⟩ := andThen_eq_done.1 hput
    obtain ⟨k, -, -, rfl, hready, -⟩ := h.after_put hb hv
    exact ih hready hrest hput

theorem EncoderReady.exists_putAll {bs : List Byte} {s : State} (h : EncoderReady s)
    (hf : ∀ b ∈ bs, 1 ≤ freq s.cum b.toNat) (hroom : s.wlim.toNat + 2 * bs.length ≤ s.wptr.toNat) :
    ∃ u, putAll bs s = .done u ∧ s.wptr.toNat ≤ u.wptr.toNat + 2 * bs.length := by
  induction bs generalizing s with
  | nil => exact ⟨s, rfl, Nat.le_add_right ..⟩
  | cons b rest ih =>
    obtain ⟨hb, hrest⟩ := List.forall_mem_cons.1 hf
    rw [List.length_cons] at hroom
    obtain ⟨v, hv⟩ := h.exists_put hb (by omega)
    obtain ⟨k, hk2, hk, rfl, hready, -⟩ := h.after_put hb hv
    have hwptr := toNat_wptr_putState (entry s.symtab b.toNat) hk
    have hwlim : (putState (entry s.symtab b.toNat) k s).wlim = s.wlim := rfl
    obtain ⟨u, hu, hdown⟩ := ih hready hrest (by rw [hwlim]; omega)
    refine ⟨u, ?_, ?_⟩
    · rw [putAll, hv, andThen_done, hu]
    · rw [List.length_cons]
      omega

/-! ### The encoder of a block -/

theorem encoderReady_opened {o : Operands} {s : State} (h : encodeOperandsOk s o) : EncoderReady (opened o s) where
  mode := rfl
  coherent := cumCoherent_rebuilt (countSum_counted_le o s)
  symtab := rfl
  low := (by decide : 2 ^ 23 ≤ (0x00800000 : Word).toNat)
  high := (by decide : (0x00800000 : Word).toNat < 2 ^ 31)
  limit := h.2.1
  size := h.2.2.1

theorem freq_opened_pos (o : Operands) (s : State) {b : Byte} (h : b ∈ inputBytes o s) :
    1 ≤ freq (opened o s).cum b.toNat := by
  refine freq_modelCum_pos b.isLt fun h0 => ?_
  have hcount := toNat_entry_tally (inputBytes o s) (by simpa [inputBytes] using o.a1.isLt) b
  have hpos := List.count_pos_iff.2 h
  exact hpos.ne ((congrArg BitVec.toNat h0).symm.trans hcount)

theorem opened_total (o : Operands) (s : State) : (opened o s).total = o.a1 := by
  show BitVec.ofNat 32 (countSum (counted o s).cnt 256) = o.a1
  rw [countSum_counted, BitVec.ofNat_toNat, BitVec.setWidth_eq]

theorem encodeRule_eq_putAll {s : State} {o : Operands} (h : encodeOperandsOk s o) :
    encodeRule o.a0 o.a1 o.a2 o.a3 s = (putAll (inputBytes o s).reverse (opened o s)).andThen encflushRule := by
  rw [encodeRule_eq_runSteps h, runSteps_openSteps h, andThen_done]

/-- Where ENCODE's loop ends: within the encoder's bounds, the first state's items kept but for the encoder's three, and
no byte written outside [WPTR, end). -/
structure LoopEnd (o : Operands) (s u : State) : Prop where
  ready : EncoderReady u
  fields : u = { opened o s with total := o.a1, wmem := u.wmem, wptr := u.wptr, state := u.state }
  down : u.wptr.toNat ≤ o.a2.toNat
  memory : sameOutside s.wmem u.wmem u.wptr.toNat o.a2.toNat

theorem freq_opened_pos_of_mem_reverse {o : Operands} {s : State} :
    ∀ b ∈ (inputBytes o s).reverse, 1 ≤ freq (opened o s).cum b.toNat :=
  fun _ hb => freq_opened_pos o s (List.mem_reverse.1 hb)

theorem loopEnd_of_putAll {o : Operands} {s u : State} (h : encodeOperandsOk s o)
    (hu : putAll (inputBytes o s).reverse (opened o s) = .done u) : LoopEnd o s u where
  ready := (encoderReady_opened h).after_putAll freq_opened_pos_of_mem_reverse hu
  fields := by
    rw [← opened_total o s]
    exact (putAll_frame hu).fields
  down := (putAll_frame hu).down
  memory := (putAll_frame hu).memory

theorem exists_loopEnd {o : Operands} {s : State} (h : encodeOperandsOk s o)
    (hroom : o.a3.toNat + 2 * o.a1.toNat ≤ o.a2.toNat) :
    ∃ u, putAll (inputBytes o s).reverse (opened o s) = .done u ∧ o.a2.toNat ≤ u.wptr.toNat + 2 * o.a1.toNat := by
  have hlen : (inputBytes o s).reverse.length = o.a1.toNat := by simp [inputBytes]
  have hput := (encoderReady_opened h).exists_putAll freq_opened_pos_of_mem_reverse (hlen ▸ hroom)
  rwa [hlen] at hput

theorem LoopEnd.wlim_eq {o : Operands} {s u : State} (h : LoopEnd o s u) : u.wlim = o.a3 := by
  rw [h.fields]
  rfl

theorem LoopEnd.wend_eq {o : Operands} {s u : State} (h : LoopEnd o s u) : u.wend = o.a2 := by
  rw [h.fields]
  rfl

theorem LoopEnd.cnt_eq {o : Operands} {s u : State} (h : LoopEnd o s u) : u.cnt = tally (inputBytes o s) := by
  rw [h.fields]
  rfl

theorem LoopEnd.lutv_eq {o : Operands} {s u : State} (h : LoopEnd o s u) : u.lutv = false := by
  rw [h.fields]
  rfl

/-- The state after ENCFLUSH. -/
def flushed (s : State) : State :=
  { s with
    wptr := s.wptr - 4
    wmem := memWrite32 s.wmem (s.wptr.toNat - 4) s.state
    outlen := s.wend - (s.wptr - 4)
    mode := .idle }

theorem LoopEnd.encflushRule_eq {o : Operands} {s u : State} (h : LoopEnd o s u)
    (hroom : o.a3.toNat + 4 ≤ u.wptr.toNat) : encflushRule u = .done (flushed u) :=
  encflushRule_done h.ready.mode (h.wlim_eq ▸ hroom) h.ready.size

theorem LoopEnd.tablesCoherent {o : Operands} {s u : State} (h : LoopEnd o s u) :
    (completed (flushed u)).tablesCoherent :=
  ⟨fun _ => h.ready.coherent, fun _ => h.ready.symtab, fun hv => absurd (h.lutv_eq.symm.trans hv) (by decide)⟩

/-- The stream: OUTLEN bytes from WPTR to the end of the region. -/
theorem LoopEnd.toNat_flushed {o : Operands} {s u : State} (h : LoopEnd o s u) (hroom : 4 ≤ u.wptr.toNat) :
    (flushed u).wptr.toNat = u.wptr.toNat - 4 ∧ (flushed u).outlen.toNat = o.a2.toNat - u.wptr.toNat + 4 := by
  have hdown := h.down
  have := o.a2.isLt
  simp only [flushed, h.wend_eq]
  constructor <;> bv_omega

/-- Settles O24: each ENCPUT takes at most 2 bytes of the room, so that the flush finds its 4. -/
theorem encodeCompletesInBoundedRoom : Obligations.EncodeCompletesInBoundedRoom := by
  intro s l hl _ hok hroom
  obtain ⟨u, hu, hbound⟩ := exists_loopEnd hok (by omega)
  have h := loopEnd_of_putAll hok hu
  have hdown := h.down
  have hflush := h.encflushRule_eq (by omega)
  obtain ⟨hwptr, houtlen⟩ := h.toNat_flushed (by omega)
  have hrule : ruleOf .encode l.ops s = .done (flushed u) := by
    refine (encodeRule_eq_putAll hok).trans ?_
    rw [hu, andThen_done, hflush]
  refine ⟨_, exec_completes hl hrule, ?_, h.tablesCoherent, fun v => ?_, ?_, ?_, ?_, ?_, fun j hj => ?_, fun a ha => ?_⟩
  · rw [h.fields]
    rfl
  · show (entry u.cnt v.toNat).toNat = _
    rw [h.cnt_eq]
    exact toNat_entry_tally _ (by simpa [inputBytes] using l.ops.a1.isLt) v
  · show _ ≤ (flushed u).wptr.toNat
    omega
  · show (flushed u).wptr.toNat + (flushed u).outlen.toNat = _
    omega
  · show 4 ≤ (flushed u).outlen.toNat
    omega
  · show (flushed u).outlen.toNat ≤ _
    omega
  · show readByte (flushed u).wmem ((flushed u).wptr.toNat + j) = _
    rw [hwptr]
    exact readByte_memWrite32 _ _ _ hj
  · change a < (flushed u).wptr.toNat ∨ _ at ha
    exact (readByte_memWrite32_outside _ _ (by omega)).trans (h.memory a (by omega))

end Sys2Proof.Claims
end

section
/-! PROOF. DECODE inverts ENCODE (43_block_codec.md R186, 42_rans_codec.md R162): the decoder, started in the state the
encoder ended in, undoes the ENCPUTs from the last to the first. -/

namespace Sys2Proof.Claims

open Sys2Proof.Machine

/-! ### The loops -/

theorem PutFrame.cum_eq {s u : State} (h : PutFrame s u) : u.cum = s.cum := by rw [h.fields]

/-- The last DECGET and its store, apart from the others. -/
theorem decgetsUp_succ_last (n dst : Nat) (s : State) :
    decgetsUp (n + 1) dst s = (decgetsUp n dst s).andThen fun u =>
      (decgetRule u).andThen fun v => .done (storeResult (dst + n) v) := by
  induction n generalizing dst s with
  | zero => rfl
  | succ n ih =>
    have hdst : dst + (n + 1) = dst + 1 + n := by omega
    rw [decgetsUp, decgetsUp, andThen_assoc, hdst]
    simp only [ih]

theorem storeBytes_append_singleton (m : Memory) (a : Nat) (bs : List Byte) (b : Byte) :
    storeBytes m a (bs ++ [b]) = writeByte (storeBytes m a bs) (a + bs.length) b := by
  induction bs generalizing m a with
  | nil => rfl
  | cons x rest ih =>
    rw [List.cons_append, storeBytes, storeBytes, ih, List.length_cons, Nat.add_assoc, Nat.add_comm 1]

/-- A decoder over the encoder's model that stands where the encoder `s` has ended in `t`: in the same STATE, with the
bytes the encoder has written since `s` next in its input. -/
structure Mirrors (s t u : State) : Prop where
  mode : u.mode = .dec
  cum : u.cum = s.cum
  lut : u.lut = buildLut u.cum
  state : u.state = t.state
  room : u.rptr.toNat + (s.wptr.toNat - t.wptr.toNat) ≤ u.rlim.toNat
  size : u.rlim.toNat ≤ u.params.wmemSize
  bytes : ∀ j, j < s.wptr.toNat - t.wptr.toNat →
    readByte u.wmem (u.rptr.toNat + j) = readByte t.wmem (t.wptr.toNat + j)

/-- It stands so too where the encoder is later, at `v`. -/
theorem Mirrors.of_later {s t u v : State} (h : Mirrors s t u) (hsv : PutFrame s v) : Mirrors v t u := by
  have hdown := hsv.down
  have hroom := h.room
  exact ⟨h.mode, h.cum.trans hsv.cum_eq.symm, h.lut, h.state, by omega, h.size, fun j hj => h.bytes j (by omega)⟩

/-- A DECGET undoes one ENCPUT (R161). -/
theorem Mirrors.decgetRule_eq {s t u : State} {sym : Byte} (hu : Mirrors s t u) (h : EncoderReady s)
    (hf : 1 ≤ freq s.cum sym.toNat) (hput : encputRule sym s = .done t) :
    decgetRule u = .done { u with state := s.state, rptr := u.rptr + (s.wptr - t.wptr), result := sym } := by
  obtain ⟨k, -, hk, rfl, -, hstep⟩ := h.after_put hf hput
  have hdown := toNat_wptr_putState (entry s.symtab sym.toNat) hk
  have hcount : s.wptr - (putState (entry s.symtab sym.toNat) k s).wptr = BitVec.ofNat 32 k := sub_sub_cancel ..
  have hroom := hu.room
  have hholds : HoldsStep u sym (s.state.toNat / 256 ^ k) :=
    ⟨hu.cum ▸ h.storedNormal hf, hu.lut, hu.cum ▸ hf, by rw [hu.state, hu.cum, hstep]⟩
  rw [hcount]
  refine decgetRule_of_emitted hholds hu.mode (by omega) hu.size h.low h.high fun i hi => ?_
  rw [hu.bytes i (by omega), hdown]
  exact readByte_emitDown_up hi hk

/-- The decoder after some symbols: STATE, RPTR and RESULT, and the symbols stored. -/
def decoded (x rptr : Word) (r : Byte) (dst : Nat) (bs : List Byte) (u : State) : State :=
  { u with state := x, rptr := rptr, result := r, wmem := storeBytes u.wmem dst bs }

theorem storeResult_decoded (x y p q : Word) (r b : Byte) (dst : Nat) (bs : List Byte) (u : State) :
    storeResult (dst + bs.length) { decoded x p r dst bs u with state := y, rptr := q, result := b } =
      decoded y q b dst (bs ++ [b]) u := by
  simp only [decoded, storeBytes_append_singleton]
  rfl

/-- The decoder has undone the ENCPUTs from `v` to `t`, and its stores have missed the input: it stands where the
encoder was at `v`. -/
theorem Mirrors.after_gets {s t u v : State} {r : Byte} {dst : Nat} {bs : List Byte} (h : Mirrors s t u)
    (hsv : PutFrame s v) (hvt : PutFrame v t)
    (hapart : ∀ a, u.rptr.toNat ≤ a → a < u.rptr.toNat + (s.wptr.toNat - t.wptr.toNat) →
      a < dst ∨ dst + bs.length ≤ a) :
    Mirrors s v (decoded v.state (u.rptr + (v.wptr - t.wptr)) r dst bs u) := by
  have hdown := hsv.down
  have hdown' := hvt.down
  have hroom := h.room
  have hrptr : (u.rptr + (v.wptr - t.wptr)).toNat = u.rptr.toNat + (v.wptr.toNat - t.wptr.toNat) := by
    have := u.rlim.isLt
    bv_omega
  refine ⟨h.mode, h.cum, h.lut, rfl, ?_, h.size, fun j hj => ?_⟩
  · show (u.rptr + (v.wptr - t.wptr)).toNat + _ ≤ u.rlim.toNat
    omega
  · show readByte (storeBytes u.wmem dst bs) ((u.rptr + (v.wptr - t.wptr)).toNat + j) = _
    have hout := hapart ((u.rptr + (v.wptr - t.wptr)).toNat + j) (by omega) (by omega)
    have haddr : t.wptr.toNat + (v.wptr.toNat - t.wptr.toNat + j) = v.wptr.toNat + j := by omega
    rw [readByte_storeBytes_outside _ _ _ _ hout, hrptr, Nat.add_assoc, h.bytes _ (by omega), haddr,
      hvt.memory _ (by omega)]

/-- The symbols come back in the opposite order, and the decoder ends in the STATE the encoder started in. -/
theorem decgetsUp_of_putAll {s t u : State} {bs : List Byte} {dst : Nat} (h : EncoderReady s)
    (hf : ∀ b ∈ bs, 1 ≤ freq s.cum b.toNat) (hput : putAll bs s = .done t) (hu : Mirrors s t u)
    (hapart : ∀ a, u.rptr.toNat ≤ a → a < u.rptr.toNat + (s.wptr.toNat - t.wptr.toNat) →
      a < dst ∨ dst + bs.length ≤ a) :
    ∃ r, decgetsUp bs.length dst u =
      .done (decoded s.state (u.rptr + (s.wptr - t.wptr)) r dst bs.reverse u) := by
  induction bs generalizing s with
  | nil =>
    cases hput
    refine ⟨u.result, ?_⟩
    rw [BitVec.sub_self, BitVec.add_zero, ← hu.state]
    rfl
  | cons b rest ih =>
    obtain ⟨hb, hrest⟩ := List.forall_mem_cons.1 hf
    obtain ⟨v, hv, hput⟩ := andThen_eq_done.1 hput
    obtain ⟨-, -, -, -, hready, -⟩ := h.after_put hb hv
    have hsv := encputRule_frame hv
    have hvt := putAll_frame hput
    have hdown := hsv.down
    have hdown' := hvt.down
    rw [List.length_cons] at hapart
    obtain ⟨r, hr⟩ := ih hready (hsv.cum_eq ▸ hrest) hput (hu.of_later hsv) fun a h1 h2 => by
      have := hapart a h1 (by omega)
      omega
    have hmirrors : Mirrors s v (decoded v.state (u.rptr + (v.wptr - t.wptr)) r dst rest.reverse u) :=
      hu.after_gets hsv hvt fun a h1 h2 => by
        have := hapart a h1 h2
        rw [List.length_reverse]
        omega
    have hrptr : u.rptr + (v.wptr - t.wptr) + (s.wptr - v.wptr) = u.rptr + (s.wptr - t.wptr) := by ring
    refine ⟨b, ?_⟩
    rw [List.length_cons, decgetsUp_succ_last, hr, andThen_done, hmirrors.decgetRule_eq h hb hv, andThen_done,
      ← List.length_reverse, storeResult_decoded, List.reverse_cons, ← hrptr]
    rfl

/-! ### The stream -/

theorem getLsbD_eq_getLsbD_extractLsb' (w : Word) {i : Nat} :
    w.getLsbD i = (w.extractLsb' (8 * (i / 8)) 8).getLsbD (i % 8) := by
  have : 8 * (i / 8) + i % 8 = i := Nat.div_add_mod i 8
  rw [BitVec.getLsbD_extractLsb', this]
  simp [Nat.mod_lt]

/-- A word is its four bytes. -/
theorem memRead32_eq_of_bytes {m : Memory} {a : Nat} {w : Word}
    (h : ∀ j, j < 4 → readByte m (a + j) = w.extractLsb' (8 * j) 8) : memRead32 m a = w := by
  refine BitVec.eq_of_getLsbD_eq fun i hi => ?_
  have hj : i / 8 < 4 := by omega
  rw [getLsbD_eq_getLsbD_extractLsb', getLsbD_eq_getLsbD_extractLsb' w, extractLsb'_memRead32 _ _ _ hj, h _ hj]

/-- Of the stream an ENCODE wrote, the first four bytes are the encoder's last STATE. -/
theorem LoopEnd.readByte_stream_state {o : Operands} {s w : State} (h : LoopEnd o s w) (hroom : 4 ≤ w.wptr.toNat)
    {j : Nat} (hj : j < 4) :
    readByte (flushed w).wmem ((flushed w).wptr.toNat + j) = w.state.extractLsb' (8 * j) 8 := by
  rw [(h.toNat_flushed hroom).1]
  exact readByte_memWrite32 _ _ _ hj

/-- The rest is what the ENCPUTs wrote. -/
theorem LoopEnd.readByte_stream_rest {o : Operands} {s w : State} (h : LoopEnd o s w) (hroom : 4 ≤ w.wptr.toNat)
    (j : Nat) : readByte (flushed w).wmem ((flushed w).wptr.toNat + (4 + j)) = readByte w.wmem (w.wptr.toNat + j) := by
  have haddr : w.wptr.toNat - 4 + (4 + j) = w.wptr.toNat + j := by omega
  rw [(h.toNat_flushed hroom).1, haddr]
  exact readByte_memWrite32_outside _ _ (by omega)

theorem encflushRule_eq_done {s u : State} (h : encflushRule s = .done u) :
    s.wlim.toNat + 4 ≤ s.wptr.toNat ∧ u = flushed s := by
  rw [encflushRule] at h
  split_ifs at h with hm hroom hregion
  cases h
  exact ⟨by omega, rfl⟩

/-- What an ENCODE that ends without a fault has done. -/
theorem encodeRule_eq_done {o : Operands} {s t : State} (h : encodeRule o.a0 o.a1 o.a2 o.a3 s = .done t) :
    encodeOperandsOk s o ∧ ∃ w, putAll (inputBytes o s).reverse (opened o s) = .done w ∧
      o.a3.toNat + 4 ≤ w.wptr.toNat ∧ t = flushed w := by
  have hok := operandsOk_of_encodeRule_done h
  rw [encodeRule_eq_putAll hok] at h
  obtain ⟨w, hw, hflush⟩ := andThen_eq_done.1 h
  obtain ⟨hroom, rfl⟩ := encflushRule_eq_done hflush
  exact ⟨hok, w, hw, (loopEnd_of_putAll hok hw).wlim_eq ▸ hroom, rfl⟩

/-! ### The decoder of a block -/

/-- The state after NORM, SYMTAB and LUTGEN on counts that add up to `n`. -/
def remodelled (n : Word) (s : State) : State :=
  { rebuilt s with total := n, lut := buildLut (modelCum s.cnt), lutv := true }

/-- The state in which DECODE's loop starts. -/
def decoderOpened (o : Operands) (n : Word) (s : State) : State :=
  { remodelled n s with
    state := memRead32 s.wmem o.a0.toNat
    rptr := o.a0 + 4
    rlim := o.a0 + o.a1
    mode := .dec }

/-- The state in which DECODE ends: no item of the decoder is left from where its loop started. -/
theorem decoded_decoderOpened (x p n : Word) (r : Byte) (dst : Nat) (bs : List Byte) (o : Operands) (s : State) :
    { decoded x p r dst bs (decoderOpened o n s) with outlen := n } =
      { s with
        cum := modelCum s.cnt, symtab := buildSymtab (modelCum s.cnt), lut := buildLut (modelCum s.cnt), total := n
        state := x, rptr := p, rlim := o.a0 + o.a1, result := r, outlen := n, wmem := storeBytes s.wmem dst bs
        mode := .dec, cumv := true, symv := true, lutv := true } := by
  simp only [decoded, decoderOpened, remodelled, rebuilt, dropTables]

theorem decodeRule_eq_decgetsUp {o : Operands} {n : Word} {s : State} (h : decodeOperandsOk s o)
    (hn : countSum s.cnt 256 = n.toNat) (hcap : n.toNat ≤ o.a3.toNat) (hlen : 4 ≤ o.a1.toNat) :
    decodeRule o.a0 o.a1 o.a2 o.a3 s =
      (decgetsUp n.toNat o.a2.toNat (decoderOpened o n s)).andThen fun t => .done { t with outlen := n } := by
  have hmodel : ((normRule s).andThen symtabRule).andThen lutgenRule = .done (remodelled n s) := by
    have hfits := n.isLt
    have htotal : BitVec.ofNat 32 (countSum s.cnt 256) = n := by rw [hn, BitVec.ofNat_toNat, BitVec.setWidth_eq]
    rw [normRule_andThen_symtabRule (by omega), andThen_done, remodelled, ← htotal]
    exact lutgenRule_done rfl
  have hinit : decinitRule o.a0 o.a1 (remodelled n s) = .done (decoderOpened o n s) := decinitRule_done rfl h.1 hlen
  rw [decodeRule_of_operandsOk h, decodeSteps, hmodel, andThen_done, decodeSymbols,
    if_neg (show ¬ o.a3.toNat < (remodelled n s).total.toNat from Nat.not_lt.2 hcap), hinit]
  rfl

/-- The decoder of a stream an ENCODE wrote, with its counts, starts where the encoder's loop ended. -/
theorem LoopEnd.mirrors {o o' : Operands} {s w u : State} (h : LoopEnd o s w) (hroom : 4 ≤ w.wptr.toNat)
    (hcnt : u.cnt = w.cnt) (hlen : o'.a1.toNat = o.a2.toNat - w.wptr.toNat + 4)
    (hsrc : o'.a0.toNat + o'.a1.toNat ≤ u.params.wmemSize) (hsize : u.params.wmemSize ≤ 2 ^ 30)
    (hbytes : ∀ j, j < o'.a1.toNat →
      readByte u.wmem (o'.a0.toNat + j) = readByte (flushed w).wmem ((flushed w).wptr.toNat + j)) :
    Mirrors (opened o s) w (decoderOpened o' o.a1 u) := by
  have hrptr : (o'.a0 + 4).toNat = o'.a0.toNat + 4 := by bv_omega
  have hrlim : (o'.a0 + o'.a1).toNat = o'.a0.toNat + o'.a1.toNat := by bv_omega
  refine ⟨rfl, ?_, rfl, ?_, ?_, ?_, fun j hj => ?_⟩
  · show modelCum u.cnt = modelCum (tally (inputBytes o s))
    rw [hcnt, h.cnt_eq]
  · exact memRead32_eq_of_bytes fun j hj => (hbytes j (by omega)).trans (h.readByte_stream_state hroom hj)
  · show (o'.a0 + 4).toNat + (o.a2.toNat - w.wptr.toNat) ≤ (o'.a0 + o'.a1).toNat
    omega
  · show (o'.a0 + o'.a1).toNat ≤ _
    exact hrlim ▸ hsrc
  · change j < o.a2.toNat - w.wptr.toNat at hj
    show readByte u.wmem ((o'.a0 + 4).toNat + j) = _
    rw [hrptr, Nat.add_assoc, hbytes _ (by omega), h.readByte_stream_rest hroom]

theorem wmemSize_le_of_legal {p : Params} (h : p.legal = true) : p.wmemSize ≤ 2 ^ 30 := by
  simp only [Params.legal, Bool.and_eq_true, decide_eq_true_eq] at h
  exact h.2

/-- The output buffer misses the stream behind its state. -/
theorem stream_apart_from_output {o : Operands} {s : State} {a k n : Nat} (h : decodeOperandsOk s o)
    (hlen : o.a1.toNat = k + 4) (hcap : n ≤ o.a3.toNat) (hlow : o.a0.toNat + 4 ≤ a) (hhigh : a < o.a0.toNat + 4 + k) :
    a < o.a2.toNat ∨ o.a2.toNat + n ≤ a := by
  obtain ⟨-, -, hmeets⟩ := h
  unfold meets at hmeets
  omega

/-- DECODE's loop on a stream an ENCODE wrote gives back the encoder's input, from the encoder's first state. -/
theorem decgetsUp_of_stream {o o' : Operands} {s w u : State} (hok : encodeOperandsOk s o)
    (hput : putAll (inputBytes o s).reverse (opened o s) = .done w)
    (hmirrors : Mirrors (opened o s) w (decoderOpened o' o.a1 u)) (hok' : decodeOperandsOk u o')
    (hsize : u.params.wmemSize ≤ 2 ^ 30) (hlen : o'.a1.toNat = o.a2.toNat - w.wptr.toNat + 4)
    (hcap : o.a1.toNat ≤ o'.a3.toNat) :
    ∃ r, decgetsUp o.a1.toNat o'.a2.toNat (decoderOpened o' o.a1 u) =
      .done (decoded 0x00800000 (o'.a0 + 4 + (o.a2 - w.wptr)) r o'.a2.toNat (inputBytes o s)
        (decoderOpened o' o.a1 u)) := by
  have hinput : (inputBytes o s).reverse.length = o.a1.toNat := by simp [inputBytes]
  have hrptr : (o'.a0 + 4).toNat = o'.a0.toNat + 4 := by
    have := hok'.1
    bv_omega
  obtain ⟨r, hloop⟩ := decgetsUp_of_putAll (dst := o'.a2.toNat) (encoderReady_opened hok)
    freq_opened_pos_of_mem_reverse hput hmirrors fun a hlow hhigh => by
      rw [hinput]
      exact stream_apart_from_output hok' hlen hcap (hrptr ▸ hlow) (hrptr ▸ hhigh)
  rw [hinput, List.reverse_reverse] at hloop
  exact ⟨r, hloop⟩

/-- Settles O29: DECODE's loop undoes the ENCPUTs of ENCODE's, over the model of the same counts. -/
theorem decodeInvertsEncode : Obligations.DecodeInvertsEncode := by
  intro s t u l l' hl _ hs ht hfault hl' hlegal hcnt hlen hok' hcap hbytes
  obtain ⟨_, hr, rfl⟩ := (exec_next_fault_none_iff hl hs).1 ⟨ht, hfault⟩
  obtain ⟨hok, w, hput, hroom, rfl⟩ := encodeRule_eq_done hr
  have h := loopEnd_of_putAll hok hput
  have hsize := wmemSize_le_of_legal hlegal
  have hlen' : l'.ops.a1.toNat = l.ops.a2.toNat - w.wptr.toNat + 4 := hlen ▸ (h.toNat_flushed (by omega)).2
  have hmirrors := h.mirrors (by omega) hcnt hlen' hok'.1 hsize fun j hj => hbytes j (hlen ▸ hj)
  have hcount : countSum u.cnt 256 = l.ops.a1.toNat := by
    rw [hcnt]
    exact (congrArg (countSum · 256) h.cnt_eq).trans (countSum_counted l.ops s)
  have hrlim : l'.ops.a0 + 4 + (l.ops.a2 - w.wptr) = l'.ops.a0 + l'.ops.a1 := by
    rw [hlen]
    show _ = l'.ops.a0 + (w.wend - (w.wptr - 4))
    rw [h.wend_eq]
    ring
  obtain ⟨r, hloop⟩ := decgetsUp_of_stream hok hput hmirrors hok' hsize hlen' hcap
  have hrule := decodeRule_eq_decgetsUp hok' hcount hcap (by omega)
  rw [hloop, andThen_done, hrlim, decoded_decoderOpened] at hrule
  refine ⟨_, exec_completes hl' hrule, rfl, fun j hj => ?_, fun a ha => ?_⟩
  · show readByte (storeBytes u.wmem l'.ops.a2.toNat (inputBytes l.ops s)) (l'.ops.a2.toNat + j) = _
    rw [readByte_storeBytes, if_pos (by simp only [inputBytes, loadBytes_length]; omega), Nat.add_sub_cancel_left,
      List.getD_eq_getElem?_getD, inputBytes, loadBytes_getElem? _ _ _ _ hj, Option.getD_some]
  · exact readByte_storeBytes_outside _ _ _ _ (by simpa [inputBytes] using ha)

end Sys2Proof.Claims
end

section
/-! PROOF. Loads and stores of whole buffers: byte by byte, and a load of the bytes just stored. -/

namespace Sys2Proof.Claims

open Sys2Proof.Machine

theorem readByte_storeBytes_add (m : Memory) (a : Nat) {bs : List Byte} {i : Nat} (h : i < bs.length) :
    readByte (storeBytes m a bs) (a + i) = bs.getD i 0 := by
  rw [readByte_storeBytes, if_pos (by omega), Nat.add_sub_cancel_left]

theorem loadBytes_getD (m : Memory) (a : Nat) {n i : Nat} (h : i < n) :
    (loadBytes m a n).getD i 0 = readByte m (a + i) := by
  rw [List.getD_eq_getElem?_getD, loadBytes_getElem? m a n i h, Option.getD_some]

theorem forall_mem_loadBytes {m : Memory} {a n : Nat} {p : Byte → Prop} :
    (∀ b ∈ loadBytes m a n, p b) ↔ ∀ i, i < n → p (readByte m (a + i)) := by
  simp [loadBytes]

theorem loadBytes_storeBytes (m : Memory) (a : Nat) (bs : List Byte) :
    loadBytes (storeBytes m a bs) a bs.length = bs := by
  refine List.ext_getElem (by simp) fun i _ hi => ?_
  simp only [loadBytes, List.getElem_map, List.getElem_range, readByte_storeBytes_add m a hi,
    List.getD_eq_getElem _ _ hi]

end Sys2Proof.Claims
end

section
/-! PROOF. EXPAND (44_bit_packer.md R200): symbol `k` of a byte is its bit BitPos(k), and the symbols of byte `j` of the
source are the block of eight at `8 * j` of the output. -/

namespace Sys2Proof.Claims

open Sys2Proof.Machine

/-! ### BitPos -/

/-- The model's BitPos and the statements' are one. -/
theorem bitPos_eq_posOf (o : BitOrder) (k : Nat) : bitPos o k = posOf o k := by cases o <;> rfl

theorem posOf_lt (o : BitOrder) {k : Nat} (h : k < 8) : posOf o k < 8 := by
  cases o with
  | lsbFirst => exact h
  | msbFirst => exact Nat.lt_succ_of_le (Nat.sub_le 7 k)

/-- BitPos is its own inverse in both orders, so every bit of a byte is the bit of some symbol. -/
theorem posOf_posOf (o : BitOrder) {k : Nat} (h : k < 8) : posOf o (posOf o k) = k := by
  cases o with
  | lsbFirst => rfl
  | msbFirst => exact Nat.sub_sub_self (Nat.le_of_lt_succ h)

theorem posOf_inj (o : BitOrder) {k i : Nat} (hk : k < 8) (hi : i < 8) : posOf o k = posOf o i ↔ k = i :=
  ⟨fun h => by rw [← posOf_posOf o hk, h, posOf_posOf o hi], congrArg _⟩

/-- Two bytes are equal when all their symbols are. -/
theorem byte_eq_of_symbols (o : BitOrder) {b c : Byte}
    (h : ∀ k, k < 8 → (b.getLsbD (posOf o k) = true ↔ c.getLsbD (posOf o k) = true)) : b = c := by
  refine BitVec.eq_of_getLsbD_eq fun i hi => ?_
  rw [← posOf_posOf o hi, Bool.eq_iff_iff]
  exact h _ (posOf_lt o hi)

/-! ### The symbols of a byte -/

theorem shiftRight_and_one (b : Byte) (i : Nat) : (b >>> i) &&& 1 = if b.getLsbD i then 1 else 0 := by
  rw [show (1 : Byte) = 1#8 from rfl, BitVec.and_one_eq_setWidth_ofBool_getLsbD, BitVec.getLsbD_ushiftRight,
    Nat.add_zero]
  cases b.getLsbD i <;> rfl

@[simp] theorem expandByte_length (o : BitOrder) (b : Byte) : (expandByte o b).length = 8 := by simp [expandByte]

theorem expandByte_getElem? (o : BitOrder) (b : Byte) {k : Nat} (h : k < 8) :
    (expandByte o b)[k]? = some (if b.getLsbD (posOf o k) then 1 else 0) := by
  simp only [expandByte, List.getElem?_map, List.getElem?_range h, Option.map_some, shiftRight_and_one,
    bitPos_eq_posOf]

/-- The symbols of a sequence of bytes. -/
def expandBytes (o : BitOrder) (bs : List Byte) : List Byte := bs.flatMap (expandByte o)

@[simp] theorem expandBytes_length (o : BitOrder) (bs : List Byte) : (expandBytes o bs).length = 8 * bs.length := by
  simp [expandBytes, Nat.mul_comm]

theorem expandBytes_getElem? (o : BitOrder) (bs : List Byte) (j : Nat) {k : Nat} (h : k < 8) :
    (expandBytes o bs)[8 * j + k]? = (bs[j]?).map fun b => if b.getLsbD (posOf o k) then 1 else 0 := by
  rw [expandBytes, flatMap_getElem?_of_length (expandByte_length o) _ _ _ h, Option.map_eq_bind]
  simp only [expandByte_getElem? o _ h, Function.comp_def]

theorem expandBytes_getD (o : BitOrder) {bs : List Byte} {j k : Nat} (hj : j < bs.length) (hk : k < 8) :
    (expandBytes o bs).getD (8 * j + k) 0 = if (bs.getD j 0).getLsbD (posOf o k) then 1 else 0 := by
  rw [List.getD_eq_getElem?_getD, expandBytes_getElem? o bs j hk, List.getD_eq_getElem _ _ hj,
    List.getElem?_eq_getElem hj, Option.map_some, Option.getD_some]

theorem toNat_le_one_of_mem_expandBytes {o : BitOrder} {bs : List Byte} {b : Byte} (h : b ∈ expandBytes o bs) :
    b.toNat ≤ 1 := by
  obtain ⟨c, -, hb⟩ := List.mem_flatMap.1 h
  obtain ⟨k, -, rfl⟩ := List.mem_map.1 hb
  rw [shiftRight_and_one]
  split <;> decide

/-! ### The command -/

theorem inRange_eq_false {size a n : Nat} (h : size < a + n) : inRange size a n = false := by simp [inRange, h]

/-- The two buffers of EXPAND or PACK are in range and apart. -/
structure BuffersOk (size a n b m : Nat) : Prop where
  src : a + n ≤ size
  dst : b + m ≤ size
  apart : ¬ meets a n b m

theorem expandRule_badAddr {s : State} {src n dst : Nat}
    (h : s.params.wmemSize < src + n ∨ s.params.wmemSize < dst + 8 * n) :
    expandRule src n dst s = .raised .badAddr 0 := by
  obtain h | h := h <;> simp [expandRule, inRange_eq_false h]

theorem expandRule_overlap {s : State} {src n dst : Nat} (hsrc : src + n ≤ s.params.wmemSize)
    (hdst : dst + 8 * n ≤ s.params.wmemSize) (h : meets src n dst (8 * n)) :
    expandRule src n dst s = .raised .overlap 0 := by
  simp [expandRule, inRange, hsrc, hdst, overlaps_eq_true_iff.2 h]

/-- The state after EXPAND's effect. -/
def expanded (src n dst : Nat) (s : State) : State :=
  { s with
    wmem := storeBytes s.wmem dst (expandBytes s.params.bitOrder (loadBytes s.wmem src n))
    outlen := BitVec.ofNat 32 (8 * n) }

theorem expandRule_eq_done_iff {s t : State} {src n dst : Nat} :
    expandRule src n dst s = .done t ↔
      BuffersOk s.params.wmemSize src n dst (8 * n) ∧ t = expanded src n dst s := by
  by_cases hbad : s.params.wmemSize < src + n ∨ s.params.wmemSize < dst + 8 * n
  · rw [expandRule_badAddr hbad]
    refine ⟨nofun, fun ⟨⟨hsrc, hdst, _⟩, _⟩ => ?_⟩
    omega
  · obtain ⟨hsrc, hdst⟩ : src + n ≤ s.params.wmemSize ∧ dst + 8 * n ≤ s.params.wmemSize := by omega
    by_cases hmeets : meets src n dst (8 * n)
    · rw [expandRule_overlap hsrc hdst hmeets]
      exact ⟨nofun, fun ⟨hok, _⟩ => absurd hmeets hok.apart⟩
    · have hrule : expandRule src n dst s = .done (expanded src n dst s) := by
        simp [expandRule, inRange, hsrc, hdst, overlaps_eq_true_iff, hmeets, expanded, expandBytes]
      rw [hrule, CmdResult.done.injEq]
      exact ⟨fun h => ⟨⟨hsrc, hdst, hmeets⟩, h.symm⟩, fun h => h.2.symm⟩

theorem readByte_expanded (s : State) (src dst : Nat) {n j k : Nat} (hj : j < n) (hk : k < 8) :
    readByte (expanded src n dst s).wmem (dst + 8 * j + k) =
      if (readByte s.wmem (src + j)).getLsbD (posOf s.params.bitOrder k) then 1 else 0 := by
  rw [← loadBytes_getD s.wmem src hj, ← expandBytes_getD _ (by simpa using hj) hk, Nat.add_assoc]
  exact readByte_storeBytes_add _ _ (by rw [expandBytes_length, loadBytes_length]; omega)

theorem readByte_expanded_outside (s : State) (src n dst : Nat) :
    sameOutside s.wmem (expanded src n dst s).wmem dst (dst + 8 * n) := fun _ ha =>
  readByte_storeBytes_outside _ _ _ _ (by rwa [expandBytes_length, loadBytes_length])

/-- Settles O30: the checks in their order, then the store of the source's symbols. -/
theorem expandSpreadsTheBits : Obligations.ExpandSpreadsTheBits := by
  intro s l hl
  refine ⟨fun h => exec_faults_precise hl (expandRule_badAddr h) rfl, fun hsrc hdst =>
    ⟨fun h => exec_faults_precise hl (expandRule_overlap hsrc hdst h) rfl, fun h => ?_⟩⟩
  have hrule := expandRule_eq_done_iff.2 ⟨⟨hsrc, hdst, h⟩, rfl⟩
  exact ⟨_, exec_completes hl hrule, rfl, fun _ _ => readByte_expanded s _ _, readByte_expanded_outside s _ _ _⟩

end Sys2Proof.Claims
end

section
/-! PROOF. PACK (44_bit_packer.md R201): BitPos takes different symbols of a byte to different bits, so the
OR-accumulation of one-bit symbols sets each bit by its own symbol alone. -/

namespace Sys2Proof.Claims

open Sys2Proof.Machine

/-! ### The OR-accumulation -/

theorem getLsbD_orBit (o : BitOrder) (acc : Byte) {bit : Byte} {k i : Nat} (hk : k < 8) (hi : i < 8)
    (hbit : bit.toNat ≤ 1) :
    (orBit o acc i bit).getLsbD (posOf o k) = true ↔ acc.getLsbD (posOf o k) = true ∨ (k = i ∧ bit = 1) := by
  rw [orBit, BitVec.getLsbD_or, bitPos_eq_posOf, Bool.or_eq_true, ← posOf_inj o hk hi]
  refine or_congr_right ?_
  obtain rfl | rfl : bit = 0 ∨ bit = 1 := by bv_omega
  · simp
  · rw [show (1 : Byte) <<< posOf o i = BitVec.twoPow 8 (posOf o i) from rfl, BitVec.getLsbD_twoPow]
    simp [posOf_lt o hi, eq_comm]

/-- The accumulation over any turns, from any start. -/
theorem getLsbD_foldl_orBit (o : BitOrder) {bit : Nat → Byte} (hbit : ∀ i, (bit i).toNat ≤ 1) {ks : List Nat}
    (hks : ∀ i ∈ ks, i < 8) {k : Nat} (hk : k < 8) (acc : Byte) :
    (ks.foldl (fun acc i => orBit o acc i (bit i)) acc).getLsbD (posOf o k) = true ↔
      acc.getLsbD (posOf o k) = true ∨ (k ∈ ks ∧ bit k = 1) := by
  induction ks generalizing acc with
  | nil => simp
  | cons i rest ih =>
    obtain ⟨hi, hrest⟩ := List.forall_mem_cons.1 hks
    rw [List.foldl_cons, ih hrest, getLsbD_orBit o acc hk hi (hbit i), List.mem_cons, or_assoc, or_and_right]
    refine or_congr_right (or_congr_left (and_congr_right ?_))
    rintro rfl
    rfl

theorem toNat_getD_le_one {bits : List Byte} (h : ∀ b ∈ bits, b.toNat ≤ 1) (i : Nat) : (bits.getD i 0).toNat ≤ 1 := by
  obtain hi | hi := Nat.lt_or_ge i bits.length
  · rw [List.getD_eq_getElem _ _ hi]
    exact h _ (List.getElem_mem hi)
  · rw [List.getD_eq_default _ _ hi]
    decide

theorem getLsbD_packByte (o : BitOrder) {bits : List Byte} (h : ∀ b ∈ bits, b.toNat ≤ 1) (j : Nat) {k : Nat}
    (hk : k < 8) : (packByte o bits j).getLsbD (posOf o k) = true ↔ bits.getD (8 * j + k) 0 = 1 := by
  rw [packByte, getLsbD_foldl_orBit o (fun i => toNat_getD_le_one h (8 * j + i)) (fun i => List.mem_range.1) hk]
  simp [hk]

@[simp] theorem packBits_length (o : BitOrder) (bits : List Byte) :
    (packBits o bits).length = (bits.length + 7) / 8 := by
  simp [packBits, ceilDiv]

theorem packBits_getD (o : BitOrder) {bits : List Byte} {j : Nat} (h : j < (bits.length + 7) / 8) :
    (packBits o bits).getD j 0 = packByte o bits j := by
  rw [List.getD_eq_getElem _ _ (by rwa [packBits_length])]
  simp [packBits]

/-! ### The validation pass -/

theorem firstBadBit_eq_none_iff {bits : List Byte} : firstBadBit bits = none ↔ ∀ b ∈ bits, b.toNat ≤ 1 := by
  simp [firstBadBit, List.findIdx?_eq_none_iff]

theorem firstBadBit_loadBytes {m : Memory} {src nb i : Nat} (hi : i < nb) (hbad : 1 < (readByte m (src + i)).toNat)
    (hfirst : ∀ j, j < i → (readByte m (src + j)).toNat ≤ 1) : firstBadBit (loadBytes m src nb) = some i := by
  rw [firstBadBit, List.findIdx?_eq_some_iff_getElem]
  refine ⟨by simpa using hi, by simpa [loadBytes] using hbad, fun j hj => ?_⟩
  simpa [loadBytes] using hfirst j hj

/-! ### The command -/

theorem ceilDiv_eight (n : Nat) : ceilDiv n 8 = (n + 7) / 8 := rfl

theorem packRule_badAddr {s : State} {src nb dst : Nat}
    (h : s.params.wmemSize < src + nb ∨ s.params.wmemSize < dst + (nb + 7) / 8) :
    packRule src nb dst s = .raised .badAddr 0 := by
  obtain h | h := h <;> simp [packRule, ceilDiv_eight, inRange_eq_false h]

theorem packRule_overlap {s : State} {src nb dst : Nat} (hsrc : src + nb ≤ s.params.wmemSize)
    (hdst : dst + (nb + 7) / 8 ≤ s.params.wmemSize) (h : meets src nb dst ((nb + 7) / 8)) :
    packRule src nb dst s = .raised .overlap 0 := by
  simp [packRule, inRange, ceilDiv_eight, hsrc, hdst, overlaps_eq_true_iff.2 h]

/-- The state after PACK's effect. -/
def packed (src nb dst : Nat) (s : State) : State :=
  { s with
    wmem := storeBytes s.wmem dst (packBits s.params.bitOrder (loadBytes s.wmem src nb))
    outlen := BitVec.ofNat 32 ((nb + 7) / 8) }

theorem packRule_badBit {s : State} {src nb dst i : Nat}
    (h : BuffersOk s.params.wmemSize src nb dst ((nb + 7) / 8))
    (hbad : firstBadBit (loadBytes s.wmem src nb) = some i) :
    packRule src nb dst s = .raised .badBit (BitVec.ofNat 32 i) := by
  obtain ⟨hsrc, hdst, hmeets⟩ := h
  simp [packRule, inRange, ceilDiv_eight, hsrc, hdst, overlaps_eq_true_iff, hmeets, hbad]

theorem packRule_done {s : State} {src nb dst : Nat} (h : BuffersOk s.params.wmemSize src nb dst ((nb + 7) / 8))
    (hbits : ∀ b ∈ loadBytes s.wmem src nb, b.toNat ≤ 1) :
    packRule src nb dst s = .done (packed src nb dst s) := by
  obtain ⟨hsrc, hdst, hmeets⟩ := h
  simp [packRule, inRange, ceilDiv_eight, hsrc, hdst, overlaps_eq_true_iff, hmeets,
    firstBadBit_eq_none_iff.2 hbits, packed]

/-- A PACK without a fault has passed its validation: its symbols are one-bit. -/
theorem packRule_eq_done {s t : State} {src nb dst : Nat} (h : packRule src nb dst s = .done t) :
    BuffersOk s.params.wmemSize src nb dst ((nb + 7) / 8) ∧
      (∀ b ∈ loadBytes s.wmem src nb, b.toNat ≤ 1) ∧ t = packed src nb dst s := by
  have hok : BuffersOk s.params.wmemSize src nb dst ((nb + 7) / 8) := by
    by_contra hnot
    by_cases hbad : s.params.wmemSize < src + nb ∨ s.params.wmemSize < dst + (nb + 7) / 8
    · simp [packRule_badAddr hbad] at h
    · obtain ⟨hsrc, hdst⟩ : src + nb ≤ s.params.wmemSize ∧ dst + (nb + 7) / 8 ≤ s.params.wmemSize := by omega
      have hmeets := not_not.1 fun hapart => hnot ⟨hsrc, hdst, hapart⟩
      simp [packRule_overlap hsrc hdst hmeets] at h
  cases hfirst : firstBadBit (loadBytes s.wmem src nb) with
  | some i => simp [packRule_badBit hok hfirst] at h
  | none =>
    have hbits := firstBadBit_eq_none_iff.1 hfirst
    rw [packRule_done hok hbits] at h
    exact ⟨hok, hbits, (CmdResult.done.inj h).symm⟩

theorem getLsbD_readByte_packed (s : State) (src dst : Nat) {nb j k : Nat} (hj : j < (nb + 7) / 8) (hk : k < 8)
    (hbits : ∀ b ∈ loadBytes s.wmem src nb, b.toNat ≤ 1) :
    (readByte (packed src nb dst s).wmem (dst + j)).getLsbD (posOf s.params.bitOrder k) = true ↔
      8 * j + k < nb ∧ readByte s.wmem (src + (8 * j + k)) = 1 := by
  have hbyte : readByte (packed src nb dst s).wmem (dst + j) =
      packByte s.params.bitOrder (loadBytes s.wmem src nb) j := by
    rw [← packBits_getD _ (by rwa [loadBytes_length])]
    exact readByte_storeBytes_add _ _ (by rwa [packBits_length, loadBytes_length])
  rw [hbyte, getLsbD_packByte _ hbits _ hk]
  by_cases hin : 8 * j + k < nb
  · rw [loadBytes_getD _ _ hin]
    simp [hin]
  · rw [List.getD_eq_default _ _ (by simpa using hin)]
    simp [hin]

theorem readByte_packed_outside (s : State) (src nb dst : Nat) :
    sameOutside s.wmem (packed src nb dst s).wmem dst (dst + (nb + 7) / 8) := fun _ ha =>
  readByte_storeBytes_outside _ _ _ _ (by rwa [packBits_length, loadBytes_length])

/-- Settles O31: the checks in their order, the validation pass before any write, then the store of the accumulated
bytes. -/
theorem packGathersTheBits : Obligations.PackGathersTheBits := by
  intro s l hl
  refine ⟨fun h => exec_faults_precise hl (packRule_badAddr h) rfl, fun hsrc hdst =>
    ⟨fun h => exec_faults_precise hl (packRule_overlap hsrc hdst h) rfl, fun h => ?_⟩⟩
  have hok := BuffersOk.mk hsrc hdst h
  refine ⟨fun i hi hbad hfirst => ?_, fun hbits => ?_⟩
  · exact exec_faults_abortive hl (packRule_badBit hok (firstBadBit_loadBytes hi hbad hfirst)) rfl
  · have hbits := (forall_mem_loadBytes (p := fun b => b.toNat ≤ 1)).2 hbits
    exact ⟨_, exec_completes hl (packRule_done hok hbits), rfl,
      fun _ _ hj hk => getLsbD_readByte_packed s _ _ hj hk hbits, readByte_packed_outside s _ _ _⟩

end Sys2Proof.Claims
end

section
/-! PROOF. PACK and EXPAND are inverse (44_bit_packer.md R202): on sequences first, then through WMEM, where the second
command loads exactly the bytes the first one stored. -/

namespace Sys2Proof.Claims

open Sys2Proof.Machine

theorem packBits_expandBytes (o : BitOrder) (bs : List Byte) : packBits o (expandBytes o bs) = bs := by
  have hlen : (packBits o (expandBytes o bs)).length = bs.length := by
    rw [packBits_length, expandBytes_length]
    omega
  refine List.ext_getElem hlen fun j hj hj' => byte_eq_of_symbols o fun k hk => ?_
  rw [← List.getD_eq_getElem _ 0 hj, ← List.getD_eq_getElem _ 0 hj', packBits_getD o (by rwa [← packBits_length o]),
    getLsbD_packByte o (fun _ => toNat_le_one_of_mem_expandBytes) j hk, expandBytes_getD o hj' hk]
  simp

theorem expandBytes_packBits (o : BitOrder) {bits : List Byte} {n : Nat} (hlen : bits.length = 8 * n)
    (hbits : ∀ b ∈ bits, b.toNat ≤ 1) : expandBytes o (packBits o bits) = bits := by
  have hlen' : (expandBytes o (packBits o bits)).length = bits.length := by
    rw [expandBytes_length, packBits_length]
    omega
  refine List.ext_getElem hlen' fun i hi hi' => ?_
  have hj : i / 8 < (bits.length + 7) / 8 := by omega
  have hk : i % 8 < 8 := Nat.mod_lt _ (by decide)
  rw [← List.getD_eq_getElem _ 0 hi, ← List.getD_eq_getElem _ 0 hi', ← Nat.div_add_mod i 8,
    expandBytes_getD o (by rwa [packBits_length]) hk, packBits_getD o hj,
    if_congr (getLsbD_packByte o hbits _ hk) rfl rfl]
  have := toNat_getD_le_one hbits (8 * (i / 8) + i % 8)
  split <;> bv_omega

/-- What a load of EXPAND's output gives. -/
theorem loadBytes_expanded (src n dst : Nat) (s : State) :
    loadBytes (expanded src n dst s).wmem dst (8 * n) = expandBytes s.params.bitOrder (loadBytes s.wmem src n) := by
  have hlen : (expandBytes s.params.bitOrder (loadBytes s.wmem src n)).length = 8 * n := by simp
  exact hlen ▸ loadBytes_storeBytes ..

/-- What a load of PACK's output gives. -/
theorem loadBytes_packed (src nb dst : Nat) (s : State) :
    loadBytes (packed src nb dst s).wmem dst ((nb + 7) / 8) =
      packBits s.params.bitOrder (loadBytes s.wmem src nb) := by
  have hlen : (packBits s.params.bitOrder (loadBytes s.wmem src nb)).length = (nb + 7) / 8 := by simp
  exact hlen ▸ loadBytes_storeBytes ..

theorem eight_mul_add_seven_div (n : Nat) : (8 * n + 7) / 8 = n := by omega

/-- PACK of what EXPAND stored, with the same bit order, stores the source bytes. -/
theorem packRule_of_expanded {s u : State} {src n dst dst' : Nat} (hparams : u.params = s.params)
    (hwmem : u.wmem = (expanded src n dst s).wmem) (hok : BuffersOk s.params.wmemSize dst (8 * n) dst' n) :
    packRule dst (8 * n) dst' u =
      .done { u with wmem := storeBytes u.wmem dst' (loadBytes s.wmem src n), outlen := BitVec.ofNat 32 n } := by
  have hload : loadBytes u.wmem dst (8 * n) = expandBytes s.params.bitOrder (loadBytes s.wmem src n) := by
    rw [hwmem, loadBytes_expanded]
  rw [packRule_done (by rwa [hparams, eight_mul_add_seven_div])
    (hload ▸ fun _ => toNat_le_one_of_mem_expandBytes), packed, hload, hparams, packBits_expandBytes,
    eight_mul_add_seven_div]

/-- EXPAND of what PACK stored, with the same bit order, stores the source symbols. -/
theorem expandRule_of_packed {s u : State} {src n dst dst' : Nat} (hparams : u.params = s.params)
    (hwmem : u.wmem = (packed src (8 * n) dst s).wmem) (hbits : ∀ b ∈ loadBytes s.wmem src (8 * n), b.toNat ≤ 1)
    (hok : BuffersOk s.params.wmemSize dst n dst' (8 * n)) :
    expandRule dst n dst' u =
      .done { u with
        wmem := storeBytes u.wmem dst' (loadBytes s.wmem src (8 * n)), outlen := BitVec.ofNat 32 (8 * n) } := by
  have hload : loadBytes u.wmem dst n = packBits s.params.bitOrder (loadBytes s.wmem src (8 * n)) := by
    rw [hwmem, ← loadBytes_packed, eight_mul_add_seven_div]
  rw [expandRule_eq_done_iff.2 ⟨hparams ▸ hok, rfl⟩, expanded, hload, hparams,
    expandBytes_packBits _ (loadBytes_length ..) hbits]

/-- A copied buffer reads as the original. -/
theorem readByte_storeBytes_loadBytes (m m' : Memory) (a b : Nat) {n i : Nat} (h : i < n) :
    readByte (storeBytes m' b (loadBytes m a n)) (b + i) = readByte m (a + i) := by
  rw [readByte_storeBytes_add _ _ (by rwa [loadBytes_length]), loadBytes_getD m a h]

/-- Settles O32: each command loads what the other stored, and stores what the other loaded. -/
theorem packAndExpandAreInverse : Obligations.PackAndExpandAreInverse := by
  intro s t u l l' hl hs hfault hl' hparams hwmem ha0
  refine ⟨fun ht hnb hroom hapart => ?_, ?_⟩
  · obtain ⟨_, hrule, rfl⟩ := (exec_next_fault_none_iff hl hs).1 ⟨ht, hfault⟩
    obtain ⟨hok, rfl⟩ := expandRule_eq_done_iff.1 hrule
    have hundo := packRule_of_expanded hparams hwmem ⟨hok.dst, hroom, hapart⟩
    rw [← ha0, ← hnb] at hundo
    exact ⟨_, exec_completes hl' hundo, rfl, fun _ => readByte_storeBytes_loadBytes s.wmem u.wmem _ _⟩
  · rintro _ ht hnb rfl hroom hapart
    obtain ⟨_, hrule, rfl⟩ := (exec_next_fault_none_iff hl hs).1 ⟨ht, hfault⟩
    obtain ⟨hok, hbits, rfl⟩ := packRule_eq_done hrule
    rw [hnb] at hbits hwmem
    rw [hnb, eight_mul_add_seven_div] at hok
    have hundo := expandRule_of_packed hparams hwmem hbits ⟨hok.dst, hroom, hapart⟩
    rw [← ha0] at hundo
    exact ⟨_, exec_completes hl' hundo, rfl, fun _ => readByte_storeBytes_loadBytes s.wmem u.wmem _ _⟩

end Sys2Proof.Claims
end

section
/-! PROOF. The host's address map (20_memory.md R61 to R68): which accesses the block performs, what each offset names,
and from both what a read or a write of a place answers. -/

namespace Sys2Proof.Claims

open Sys2Proof.Machine

/-! ### Which accesses are performed -/

/-- The model's check and the statements' are one. -/
theorem permitted_iff {size : Nat} {w : Width} {off : Nat} :
    permitted size w off = true ↔ accessAllowed size w off := by
  simp only [accessAllowed, permitted, insideWords, insideGap, insideWindow, Bool.or_eq_true, Bool.and_eq_true,
    decide_eq_true_eq]
  cases w <;> simp only [widthBytes, reduceCtorEq, true_and, false_and, and_false, false_or, or_false] <;> omega

theorem stepEvent_read {s : State} {w : Width} {off : Nat} (h : accessAllowed s.params.wmemSize w off) :
    stepEvent (.access (.read w off)) s = .next (hostRead w off s) :=
  hostAccess_read w off s (permitted_iff.2 h)

theorem stepEvent_write {s : State} {w : Width} {off : Nat} (v : Word) (h : accessAllowed s.params.wmemSize w off) :
    stepEvent (.access (.write w off v)) s = .next (hostWrite w off v s) :=
  hostAccess_write w off v s (permitted_iff.2 h)

theorem widthBytes_pos (w : Width) : 0 < widthBytes w := by cases w <;> decide

theorem widthBytes_le_four (w : Width) : widthBytes w ≤ 4 := by cases w <;> decide

/-- A window whose base is a multiple of 4 is aligned for every width. -/
theorem base_add_mod_widthBytes {base k : Nat} {w : Width} (hbase : base % 4 = 0) (hk : k % widthBytes w = 0) :
    (base + k) % widthBytes w = 0 := by
  cases w <;> simp only [widthBytes] at hk ⊢ <;> omega

theorem accessAllowed_lut {size k : Nat} {w : Width} (h : k + widthBytes w ≤ 16384) (hk : k % widthBytes w = 0) :
    accessAllowed size w (0x4000 + k) :=
  .inr (.inr (.inr (.inr (.inl ⟨by omega, by omega, base_add_mod_widthBytes (by decide) hk⟩))))

theorem accessAllowed_wmem {size a : Nat} {w : Width} (h : a + widthBytes w ≤ size) (ha : a % widthBytes w = 0) :
    accessAllowed size w (0x10000 + a) :=
  .inr (.inr (.inr (.inr (.inr ⟨by omega, by omega, base_add_mod_widthBytes (by decide) ha⟩))))

/-! ### What an offset names -/

/-- The offset of a register (20_memory.md R61). -/
def regOffset (r : HostReg) : Nat :=
  match r with
  | .id => 0x000
  | .version => 0x004
  | .paramProbbits => 0x008
  | .paramLower => 0x00C
  | .paramWmemsize => 0x010
  | .paramNsym => 0x014
  | .cmd => 0x020
  | .status => 0x024
  | .ctrl => 0x028
  | .finfo => 0x02C
  | .arg0 => 0x030
  | .arg1 => 0x034
  | .arg2 => 0x038
  | .arg3 => 0x03C
  | .state => 0x040
  | .wptr => 0x044
  | .wend => 0x048
  | .wlim => 0x04C
  | .rptr => 0x050
  | .rlim => 0x054
  | .result => 0x058
  | .total => 0x05C
  | .outlen => 0x060
  | .fop => 0x064

theorem placeAt_regOffset (size : Nat) (r : HostReg) : placeAt size (regOffset r) = .reg r := by cases r <;> rfl

theorem accessAllowed_regOffset (size : Nat) (r : HostReg) : accessAllowed size .w32 (regOffset r) :=
  .inl ⟨.inl (by cases r <;> decide), rfl, by cases r <;> decide⟩

theorem placeAt_cnt (size : Nat) {i : Nat} (h : i < 256) : placeAt size (0x400 + 4 * i) = .cnt i := by
  have hi : (0x400 + 4 * i - 0x400) / 4 = i := by omega
  simp (disch := omega) only [placeAt, if_neg, if_pos, hi]

theorem placeAt_cum (size : Nat) {i : Nat} (h : i ≤ 256) : placeAt size (0x800 + 4 * i) = .cum i := by
  have hi : (0x800 + 4 * i - 0x800) / 4 = i := by omega
  simp (disch := omega) only [placeAt, if_neg, if_pos, hi]

theorem placeAt_symtab (size : Nat) {i word : Nat} (hi : i < 256) (hword : word < 4) :
    placeAt size (0x1000 + 4 * word + 16 * i) = .symtab i word := by
  have hrow : (0x1000 + 4 * word + 16 * i - 0x1000) / 16 = i := by omega
  have hcol : (0x1000 + 4 * word + 16 * i - 0x1000) % 16 / 4 = word := by omega
  simp (disch := omega) only [placeAt, if_neg, if_pos, hrow, hcol]

theorem placeAt_lut (size : Nat) {k : Nat} (h : k < 16384) : placeAt size (0x4000 + k) = .lut k := by
  simp (disch := omega) only [placeAt, if_neg, if_pos, Nat.add_sub_cancel_left]

theorem placeAt_wmem {size a : Nat} (h : a < size) : placeAt size (0x10000 + a) = .wmem a := by
  simp (disch := omega) only [placeAt, if_neg, if_pos, Nat.add_sub_cancel_left]

/-! ### What a write of a place does -/

theorem stepEvent_write_reg (r : HostReg) (v : Word) (s : State) :
    stepEvent (.access (.write .w32 (regOffset r) v)) s = .next (writeReg r v s) := by
  rw [stepEvent_write v (accessAllowed_regOffset _ r), hostWrite, placeAt_regOffset]

theorem stepEvent_write_cnt {i : Nat} (h : i < 256) (v : Word) (s : State) :
    stepEvent (.access (.write .w32 (0x400 + 4 * i) v)) s = .next (writeCnt i v s) := by
  rw [stepEvent_write v (.inl ⟨.inl (by omega), rfl, by omega⟩), hostWrite, placeAt_cnt _ h]

theorem stepEvent_write_wmem {w : Width} {a : Nat} {s : State} (h : a + widthBytes w ≤ s.params.wmemSize)
    (ha : a % widthBytes w = 0) (v : Word) :
    stepEvent (.access (.write w (0x10000 + a) v)) s = .next (writeWmem a w v s) := by
  have hlt : a < s.params.wmemSize := by have := widthBytes_pos w; omega
  rw [stepEvent_write v (accessAllowed_wmem h ha), hostWrite, placeAt_wmem hlt]

/-! ### What a read of a place answers -/

theorem hostRead_of_idle {s : State} {w : Width} {off : Nat} {p : Place} (hbusy : s.busy = false)
    (hp : placeAt s.params.wmemSize off = p) : hostRead w off s = answerRead (placeValue p w s) s := by
  subst hp
  cases hp : placeAt s.params.wmemSize off <;> simp only [hostRead, hp, hbusy] <;> rfl

theorem stepEvent_read_idle {s : State} {w : Width} {off : Nat} {p : Place} (hbusy : s.busy = false)
    (h : accessAllowed s.params.wmemSize w off) (hp : placeAt s.params.wmemSize off = p) :
    stepEvent (.access (.read w off)) s = .next (answerRead (placeValue p w s) s) := by
  rw [stepEvent_read h, hostRead_of_idle hbusy hp]

/-- A register answers its value unless a running command hides it. -/
theorem stepEvent_read_reg {r : HostReg} {s : State} (h : (s.busy && busyHides r) = false) :
    stepEvent (.access (.read .w32 (regOffset r))) s = .next (answerRead (regValue r s) s) := by
  rw [stepEvent_read (accessAllowed_regOffset _ r)]
  simp only [hostRead, placeAt_regOffset, h]
  rfl

end Sys2Proof.Claims
end

section
/-! PROOF. NOP, and the host's writes to CMD, STATUS, CTRL, ARG0-ARG3 and CNT (45_control.md R210 to R216). -/

namespace Sys2Proof.Claims

open Sys2Proof.Machine

/-- Settles O1: NOP's rule leaves the state alone. -/
theorem nopCompletesWithoutEffect : Obligations.NopCompletesWithoutEffect := fun _ _ hl => exec_completes hl rfl

/-! ### CMD -/

theorem writeCmd_dropped {s : State} (w : Word) (h : s.busy = true ∨ s.fault ≠ none) :
    writeCmd w s = { s with cmdovr := true } :=
  if_pos (by rwa [Bool.or_eq_true, Option.isSome_iff_ne_none])

theorem writeCmd_accepted {s : State} (w : Word) (hbusy : s.busy = false) (hfault : s.fault = none) :
    writeCmd w s = accept w s :=
  if_neg (by rw [hbusy, hfault]; decide)

theorem irq_accept {s : State} (w : Word) (hfault : s.fault = none) : irq (accept w s) = false := by
  simp [irq, hfault]

/-- Settles O41: the branches of R211; acceptance clears DONE, and no fault is left to raise the interrupt. -/
theorem cmdWriteIsAcceptedOrDropped : Obligations.CmdWriteIsAcceptedOrDropped := by
  intro s w
  refine ⟨fun h => ?_, fun hbusy hfault => ⟨accept w s, ?_, rfl, irq_accept w hfault⟩⟩
  · rw [← writeCmd_dropped w h]
    exact stepEvent_write_reg .cmd w s
  · rw [← writeCmd_accepted w hbusy hfault]
    exact stepEvent_write_reg .cmd w s

/-! ### STATUS -/

theorem and_not_eq_ite (flag clear : Bool) : (flag && !clear) = if clear then false else flag := by
  cases clear <;> simp

theorem irq_clearStatus (v : Word) (s : State) :
    irq (clearStatus v s) = (s.ie && ((s.done && !v.getLsbD 1) || (s.fault.isSome && !v.getLsbD 2))) := by
  rw [irq, clearStatus_ie, clearStatus_done, clearStatus_fault]
  cases v.getLsbD 2 <;> simp

/-- Settles O42: each W1C flag is kept by the mask of its own bit. -/
theorem statusWriteClearsFlags : Obligations.StatusWriteClearsFlags := fun s v =>
  ⟨clearStatus v s, stepEvent_write_reg .status v s, rfl, and_not_eq_ite .., rfl, and_not_eq_ite .., and_not_eq_ite ..,
    irq_clearStatus v s⟩

/-! ### CTRL, ARG and CNT -/

theorem writeArg_busy {s : State} (i : Nat) (v : Word) (h : s.busy = true) : writeArg i v s = flagAccess s := if_pos h

theorem writeArg_idle {s : State} (i : Nat) (v : Word) (h : s.busy = false) : writeArg i v s = setArg i v s :=
  if_neg (Bool.eq_false_iff.1 h)

theorem writeCnt_busy {s : State} (i : Nat) (v : Word) (h : s.busy = true) : writeCnt i v s = flagAccess s := if_pos h

theorem writeCnt_idle {s : State} (i : Nat) (v : Word) (h : s.busy = false) :
    writeCnt i v s = { dropTables s with cnt := setEntry s.cnt i v } :=
  if_neg (Bool.eq_false_iff.1 h)

/-- The registers ARG0 to ARG3. -/
def argReg (i : Fin 4) : HostReg :=
  match i with
  | 0 => .arg0
  | 1 => .arg1
  | 2 => .arg2
  | 3 => .arg3

theorem writeReg_argReg (i : Fin 4) (v : Word) (s : State) : writeReg (argReg i) v s = writeArg i v s := by
  fin_cases i <;> rfl

theorem stepEvent_write_arg_idle {s : State} (i : Fin 4) (v : Word) (h : s.busy = false) :
    stepEvent (.access (.write .w32 (regOffset (argReg i)) v)) s = .next (setArg i v s) := by
  rw [stepEvent_write_reg, writeReg_argReg, writeArg_idle _ _ h]

theorem stepEvent_write_arg_busy {s : State} (i : Fin 4) (v : Word) (h : s.busy = true) :
    stepEvent (.access (.write .w32 (regOffset (argReg i)) v)) s = .next (flagAccess s) := by
  rw [stepEvent_write_reg, writeReg_argReg, writeArg_busy _ _ h]

/-- The offsets of ARG0 to ARG3, as the statements list them. -/
theorem exists_argReg_of_mem {off : Nat} (h : off ∈ [0x030, 0x034, 0x038, 0x03C]) :
    ∃ i, regOffset (argReg i) = off := by
  revert off
  decide

/-- Settles O44: idle, the write stores (and for CNT drops the tables, whatever the value); busy, it is flagged. -/
theorem registerWritesStoreOrDrop : Obligations.RegisterWritesStoreOrDrop := by
  intro s v
  refine ⟨stepEvent_write_reg .ctrl v s, rfl, fun hidle => ?_, fun hbusy => ⟨fun off hoff => ?_, fun i hi => ?_⟩⟩
  · refine ⟨stepEvent_write_arg_idle 0 v hidle, stepEvent_write_arg_idle 1 v hidle, stepEvent_write_arg_idle 2 v hidle,
      stepEvent_write_arg_idle 3 v hidle, fun i hi => ⟨{ dropTables s with cnt := setEntry s.cnt i v }, ?_, rfl,
        fun j _ => entry_setEntry _ _ _ _ hi⟩⟩
    rw [stepEvent_write_cnt hi, writeCnt_idle i v hidle]
  · obtain ⟨i, rfl⟩ := exists_argReg_of_mem hoff
    exact stepEvent_write_arg_busy i v hbusy
  · rw [stepEvent_write_cnt hi, writeCnt_busy i v hbusy]
    rfl

end Sys2Proof.Claims
end

section
/-! PROOF. The host's writes to WMEM and its reads of registers and windows (45_control.md R217 to R219), whose bytes
are little-endian (20_memory.md R65). -/

namespace Sys2Proof.Claims

open Sys2Proof.Machine

/-! ### Writing WMEM -/

theorem writeWmem_busy {s : State} (a : Nat) (w : Width) (v : Word) (h : s.busy = true) :
    writeWmem a w v s = flagAccess s :=
  if_pos h

theorem writeWmem_idle {s : State} (a : Nat) (w : Width) (v : Word) (h : s.busy = false) :
    writeWmem a w v s = { s with wmem := storeBytes s.wmem a (leBytes v (widthBytes w)) } :=
  if_neg (Bool.eq_false_iff.1 h)

/-- Settles O45: idle, the write is a store of the value's little-endian bytes; busy, it is flagged. -/
theorem wmemWindowWriteStoresBytes : Obligations.WmemWindowWriteStoresBytes := by
  intro s w a v hsize halign
  refine ⟨fun hidle => ⟨{ s with wmem := storeBytes s.wmem a (leBytes v (widthBytes w)) }, ?_, rfl, fun j hj => ?_,
    fun b hb => ?_⟩, fun hbusy => ?_⟩
  · rw [stepEvent_write_wmem hsize halign, writeWmem_idle a w v hidle]
  · rw [readByte_storeBytes_add _ _ (by rwa [leBytes_length]), leBytes_getD v _ j 0 hj]
  · exact readByte_storeBytes_outside _ _ _ _ (by rwa [leBytes_length])
  · rw [stepEvent_write_wmem hsize halign, writeWmem_busy a w v hbusy]
    rfl

/-! ### What a word read from bytes holds -/

theorem extractLsb'_ofNat_leValue {bs : List Byte} (h : bs.length ≤ 4) (j : Nat) :
    (BitVec.ofNat 32 (leValue bs)).extractLsb' (8 * j) 8 = bs.getD j 0 := by
  have hlt : leValue bs < 2 ^ 32 := calc
    leValue bs < 256 ^ bs.length := leValue_lt bs
    _ ≤ 256 ^ 4 := Nat.pow_le_pow_right (by decide) h
  apply BitVec.eq_of_toNat_eq
  rw [BitVec.extractLsb'_toNat, BitVec.toNat_ofNat, Nat.mod_eq_of_lt hlt, Nat.shiftRight_eq_div_pow, Nat.pow_mul,
    leValue_div_mod]

theorem extractLsb'_placeValue_lut (s : State) {w : Width} (k : Nat) {j : Nat} (hj : j < widthBytes w) :
    (placeValue (.lut k) w s).extractLsb' (8 * j) 8 = entry s.lut (k + j) := by
  rw [placeValue, extractLsb'_ofNat_leValue (by simpa [lutBytes] using widthBytes_le_four w)]
  simp [lutBytes, hj]

theorem extractLsb'_placeValue_wmem (s : State) {w : Width} (a : Nat) {j : Nat} (hj : j < widthBytes w) :
    (placeValue (.wmem a) w s).extractLsb' (8 * j) 8 = readByte s.wmem (a + j) := by
  rw [placeValue, extractLsb'_ofNat_leValue (by simpa using widthBytes_le_four w), loadBytes_getD _ _ hj]

/-! ### Reading -/

/-- A table of offsets and values, checked against the registers it is of. -/
theorem forall_read_regs {s : State} {rows : List (Nat × Word)} (regs : List HostReg)
    (hrows : rows = regs.map fun r => (regOffset r, regValue r s))
    (hshown : ∀ r ∈ regs, (s.busy && busyHides r) = false) :
    ∀ row ∈ rows, stepEvent (.access (.read .w32 row.1)) s = .next { s with rdata := some row.2 } := by
  subst hrows
  rw [List.forall_mem_map]
  exact fun r hr => stepEvent_read_reg (hshown r hr)

theorem ctrlWord_eq_ite (s : State) : ctrlWord s = if s.ie then 1 else 0 := by
  cases h : s.ie <;> simp [ctrlWord, flagBit, h]

theorem stepEvent_read_symtab {s : State} (hbusy : s.busy = false) {i word : Nat} (hi : i < 256) (hword : word < 4) :
    stepEvent (.access (.read .w32 (0x1000 + 4 * word + 16 * i))) s =
      .next (answerRead (descWord (entry s.symtab i) word) s) :=
  stepEvent_read_idle hbusy (.inl ⟨.inr (by omega), rfl, by omega⟩) (placeAt_symtab _ hi hword)

/-- Settles O46: a read answers the value of the place its offset names, register by register and window by window. -/
theorem hostReadsReturnValues : Obligations.HostReadsReturnValues := by
  intro s
  refine ⟨?always, fun hidle => ⟨?idle, fun i hi => ?cnt, fun i hi => ?cum, fun i hi => ?symtab,
    fun w k hk halign => ?lut, fun w a ha halign => ?wmem⟩⟩
  case always =>
    rw [← ctrlWord_eq_ite]
    refine forall_read_regs [.id, .version, .paramProbbits, .paramLower, .paramWmemsize, .paramNsym, .cmd, .ctrl] rfl
      fun r hr => ?_
    have hshown : busyHides r = false := by revert r; decide
    rw [hshown, Bool.and_false]
  case idle =>
    exact forall_read_regs [.finfo, .arg0, .arg1, .arg2, .arg3, .state, .wptr, .wend, .wlim, .rptr, .rlim, .result,
      .total, .outlen, .fop] rfl fun r _ => by rw [hidle, Bool.false_and]
  case cnt => exact stepEvent_read_idle hidle (.inl ⟨.inl (by omega), rfl, by omega⟩) (placeAt_cnt _ hi)
  case cum => exact stepEvent_read_idle hidle (.inl ⟨.inl (by omega), rfl, by omega⟩) (placeAt_cum _ hi)
  case symtab =>
    have hread := fun word (hword : word < 4) => stepEvent_read_symtab hidle hi hword
    exact ⟨hread 0 (by decide), hread 1 (by decide), hread 2 (by decide), hread 3 (by decide)⟩
  case lut =>
    have hlt : k < 16384 := by have := widthBytes_pos w; omega
    exact ⟨_, stepEvent_read_idle hidle (accessAllowed_lut hk halign) (placeAt_lut _ hlt),
      fun _ hj => extractLsb'_placeValue_lut s k hj⟩
  case wmem =>
    have hlt : a < s.params.wmemSize := by have := widthBytes_pos w; omega
    exact ⟨_, stepEvent_read_idle hidle (accessAllowed_wmem ha halign) (placeAt_wmem hlt),
      fun _ hj => extractLsb'_placeValue_wmem s a hj⟩

end Sys2Proof.Claims
end

section
/-! PROOF. How every fault ends its command (60_exceptions.md R268 to R270): a command that shows a fault has taken the
one its rule raised, on the state at its entry. -/

namespace Sys2Proof.Claims

open Sys2Proof.Machine

/-- No rule writes the fault record, so a fault after a command comes from its rule. -/
theorem exec_eq_next_of_fault_some {i : Instr} {s t : State} {l : Latch} {c : FaultCode} (hl : s.latch = some l)
    (hs : s.fault = none) (ht : exec i s = .next t) (hc : t.fault = some c) :
    ∃ info, ruleOf i l.ops s = .raised c info ∧ t = takeFault i c info l.ops s := by
  obtain ⟨l', hl', ⟨u, hu, rfl⟩ | ⟨c', info, hraised, rfl⟩⟩ := exec_cases ht
  · have hkeep : u.fault = s.fault := (handshakeBlind_ruleOf i l'.ops).keeps_fault hu
    rw [complete_fault, hkeep, hs] at hc
    cases hc
  · obtain rfl : l' = l := Option.some.inj (hl'.symm.trans hl)
    obtain ⟨-, -, -, -, hfault, -⟩ := takeFault_frame i c' info l'.ops s
    obtain rfl : c' = c := Option.some.inj (hfault.symm.trans hc)
    exact ⟨info, hraised, rfl⟩

theorem latchedOp_of_latch {s : State} {l : Latch} (h : s.latch = some l) :
    latchedOp s = l.word.extractLsb' 0 8 := by
  simp [latchedOp, h, opField]

/-- Settles O37: a composite's fault is taken on the state at its entry too, whatever its steps have done by then. -/
theorem everyFaultIsRecorded : Obligations.EveryFaultIsRecorded := by
  intro i s t l c hl hs ht hc
  obtain ⟨info, -, rfl⟩ := exec_eq_next_of_fault_some hl hs ht hc
  obtain ⟨-, -, -, hdone, -, -, -, -, hfinfo, hfop, houtlen, hlatch, -⟩ := takeFault_frame i c info l.ops s
  refine ⟨hlatch, hfop.trans (latchedOp_of_latch hl), houtlen, hdone, fun hprecise => ?_,
    takeFault_abortive_mode i c info l.ops s⟩
  rw [hfinfo, takeFault_precise i c info l.ops s hprecise, recordFault_eq_faulted hl]

end Sys2Proof.Claims
end

section
/-! PROOF. Which rules are free of SEQ (60_exceptions.md R265): a step of ENCODE or DECODE leaves what the next one
requires, the validity of a table or the coder's mode. -/

namespace Sys2Proof.Claims

open Sys2Proof.Machine

/-- The rule does not raise SEQ, and where it completes, `P` holds of the state it leaves. -/
def SeqFree (P : State → Prop) (r : CmdResult) : Prop :=
  match r with
  | .done t => P t
  | .raised c _ => c ≠ .seq
  | .stuck _ => True

theorem SeqFree.ne_raised {P : State → Prop} {r : CmdResult} (h : SeqFree P r) (info : Word) :
    r ≠ .raised .seq info := by
  rintro rfl
  exact h rfl

theorem SeqFree.andThen {P Q : State → Prop} {r : CmdResult} {k : State → CmdResult} (hr : SeqFree P r)
    (hk : ∀ t, P t → SeqFree Q (k t)) : SeqFree Q (r.andThen k) := by
  cases r with
  | done t => exact hk t hr
  | raised c info => exact hr
  | stuck p => trivial

theorem SeqFree.mono {P Q : State → Prop} {r : CmdResult} (hr : SeqFree P r) (h : ∀ t, P t → Q t) : SeqFree Q r := by
  cases r with
  | done t => exact h t hr
  | raised c info => exact hr
  | stuck p => trivial

/-- A check of the rule for another fault. -/
theorem SeqFree.guard {P : State → Prop} {p : Prop} [Decidable p] {c : FaultCode} {info : Word} {r : CmdResult}
    (hc : c ≠ .seq) (hr : SeqFree P r) : SeqFree P (if p then .raised c info else r) := by
  split
  · exact hc
  · exact hr

/-! ### The frequency model and the tables -/

theorem seqFree_countRule (src len : Nat) (s : State) : SeqFree (fun _ => True) (countRule src len s) :=
  .guard nofun trivial

theorem seqFree_normRule (s : State) : SeqFree (fun t => t.cumv = true) (normRule s) := by
  refine .guard nofun ?_
  cases normalize s.cnt with
  | error i => exact nofun
  | ok cum => rfl

theorem seqFree_symtabRule {s : State} (h : s.cumv = true) :
    SeqFree (fun t => t.cumv = true ∧ t.symv = true) (symtabRule s) := by
  rw [symtabRule, if_neg (by simp [h])]
  cases firstOutOfSlot s.cum with
  | some i => exact nofun
  | none => exact ⟨h, rfl⟩

theorem seqFree_lutgenRule {s : State} (h : s.cumv = true) : SeqFree (fun t => t.lutv = true) (lutgenRule s) := by
  rw [lutgenRule_done h]
  rfl

/-! ### The coder -/

theorem seqFree_encinitRule {s : State} (hi lim : Word) (h : s.symv = true) :
    SeqFree (fun t => t.mode = .enc) (encinitRule hi lim s) := by
  rw [encinitRule, if_neg (by simp [h])]
  exact .guard nofun rfl

theorem seqFree_encputRule {s : State} (sym : Byte) (h : s.mode = .enc) :
    SeqFree (fun t => t.mode = .enc) (encputRule sym s) := by
  rw [encputRule, if_neg (not_not.2 h)]
  refine .guard nofun ?_
  split
  · trivial
  · split
    · exact nofun
    · exact h

theorem seqFree_encflushRule {s : State} (h : s.mode = .enc) : SeqFree (fun _ => True) (encflushRule s) := by
  rw [encflushRule, if_neg (not_not.2 h)]
  refine .guard nofun ?_
  split <;> trivial

theorem seqFree_decinitRule {s : State} (src len : Word) (h : s.lutv = true) :
    SeqFree (fun t => t.mode = .dec) (decinitRule src len s) := by
  rw [decinitRule, if_neg (by simp [h])]
  exact .guard nofun <| .guard nofun rfl

theorem seqFree_decgetRule {s : State} (h : s.mode = .dec) : SeqFree (fun t => t.mode = .dec) (decgetRule s) := by
  rw [decgetRule, if_neg (not_not.2 h)]
  refine .guard nofun ?_
  split
  · trivial
  · split
    · exact nofun
    · exact h

/-! ### The composites -/

theorem seqFree_encputsDown {s : State} (src n : Nat) (h : s.mode = .enc) :
    SeqFree (fun t => t.mode = .enc) (encputsDown src n s) := by
  induction n generalizing s with
  | zero => exact h
  | succ k ih => exact (seqFree_encputRule _ h).andThen fun _ => ih

theorem seqFree_encodeRule (src len hi lim : Word) (s : State) :
    SeqFree (fun _ => True) (encodeRule src len hi lim s) :=
  .guard nofun <| .guard nofun <| .guard nofun <|
    (((((seqFree_countRule _ _ s).andThen fun t _ => seqFree_normRule t).andThen fun _ => seqFree_symtabRule).andThen
      fun _ ⟨_, hsymv⟩ => seqFree_encinitRule hi lim hsymv).andThen fun _ => seqFree_encputsDown _ _).andThen
      fun _ => seqFree_encflushRule

theorem seqFree_decgetsUp {s : State} (n dst : Nat) (h : s.mode = .dec) :
    SeqFree (fun _ => True) (decgetsUp n dst s) := by
  induction n generalizing s dst with
  | zero => trivial
  | succ k ih => exact (seqFree_decgetRule h).andThen fun t ht => ih (s := storeResult dst t) (dst + 1) ht

theorem seqFree_decodeSymbols {s : State} (src len : Word) (dst cap : Nat) (h : s.lutv = true) :
    SeqFree (fun _ => True) (decodeSymbols src len dst cap s) :=
  .guard nofun <| ((seqFree_decinitRule src len h).andThen fun _ => seqFree_decgetsUp _ _).andThen fun _ _ => trivial

theorem seqFree_decodeRule (src len dst cap : Word) (s : State) :
    SeqFree (fun _ => True) (decodeRule src len dst cap s) :=
  .guard nofun <| .guard nofun <| .guard nofun <|
    (((seqFree_normRule s).andThen fun _ => seqFree_symtabRule).andThen
      fun _ ⟨hcumv, _⟩ => seqFree_lutgenRule hcumv).andThen fun _ => seqFree_decodeSymbols src len _ _

/-! ### The commands without a requirement -/

theorem seqFree_packRule (src nb dst : Nat) (s : State) : SeqFree (fun _ => True) (packRule src nb dst s) := by
  refine .guard nofun <| .guard nofun <| .guard nofun ?_
  cases firstBadBit (loadBytes s.wmem src nb) with
  | some i => exact nofun
  | none => trivial

/-- The commands that R265 gives no sequencing requirement. -/
def unsequenced : List Instr := [.nop, .count, .norm, .encode, .decode, .expand, .pack, .stcnt, .ldcnt]

theorem seqFree_ruleOf_of_unsequenced {i : Instr} (h : i ∈ unsequenced) (o : Operands) (s : State) :
    SeqFree (fun _ => True) (ruleOf i o s) := by
  cases i with
  | nop => trivial
  | count => exact seqFree_countRule ..
  | norm => exact (seqFree_normRule s).mono fun _ _ => trivial
  | encode => exact seqFree_encodeRule ..
  | decode => exact seqFree_decodeRule ..
  | expand => exact .guard nofun <| .guard nofun <| .guard nofun trivial
  | pack => exact seqFree_packRule ..
  | stcnt => exact .guard nofun <| .guard nofun trivial
  | ldcnt => exact .guard nofun <| .guard nofun trivial
  | symtab | lutgen | encinit | encput | encflush | decinit | decget => simp [unsequenced] at h

/-! ### The requirements -/

theorem symtabRule_seq {s : State} (h : s.cumv = false) : symtabRule s = .raised .seq 1 := by
  simp [symtabRule, h]

theorem encputRule_seq {s : State} (sym : Byte) (h : s.mode ≠ .enc) : encputRule sym s = .raised .seq 4 := if_pos h

theorem decgetRule_seq {s : State} (h : s.mode ≠ .dec) : decgetRule s = .raised .seq 5 := if_pos h

/-- Settles O33: each requirement is its rule's first check; the other commands' rules are free of SEQ. -/
theorem sequencingFaultsArePrecise : Obligations.SequencingFaultsArePrecise := by
  intro s l hl
  refine ⟨fun hcumv => ⟨exec_faults_precise hl (symtabRule_seq hcumv) rfl,
      exec_faults_precise hl (lutgenRule_seq hcumv) rfl⟩,
    fun hsymv => exec_faults_precise hl (encinitRule_seq hsymv) rfl,
    fun hlutv => exec_faults_precise hl (decinitRule_seq hlutv) rfl,
    fun henc => ⟨fun sym => exec_faults_precise hl (encputRule_seq sym henc) rfl,
      exec_faults_precise hl (encflushRule_seq henc) rfl⟩,
    fun hdec => exec_faults_precise hl (decgetRule_seq hdec) rfl, fun i t hi hs ht hseq => ?_⟩
  obtain ⟨info, hraised, -⟩ := exec_eq_next_of_fault_some hl hs ht hseq
  exact (seqFree_ruleOf_of_unsequenced hi l.ops s).ne_raised info hraised

end Sys2Proof.Claims
end

section
/-! PROOF. The operand checks, each a precise fault of the first checks of its rule (60_exceptions.md R266, R267). -/

namespace Sys2Proof.Claims

open Sys2Proof.Machine

theorem regionOk_eq_false {size lim hi : Nat} (h : hi < lim ∨ size < hi) : regionOk size lim hi = false := by
  rw [← Bool.not_eq_true, regionOk_eq_true_iff]
  omega

theorem encodeRule_badAddr {s : State} {src len hi lim : Word}
    (h : s.params.wmemSize < src.toNat + len.toNat ∨ hi.toNat < lim.toNat ∨ s.params.wmemSize < hi.toNat) :
    encodeRule src len hi lim s = .raised .badAddr 0 := by
  obtain hsrc | hregion := h
  · simp [encodeRule, inRange_eq_false hsrc]
  · simp [encodeRule, regionOk_eq_false hregion]

theorem encodeRule_overlap {s : State} {src len hi lim : Word} (hsrc : src.toNat + len.toNat ≤ s.params.wmemSize)
    (hlim : lim.toNat ≤ hi.toNat) (hhi : hi.toNat ≤ s.params.wmemSize)
    (h : meets src.toNat len.toNat lim.toNat (hi.toNat - lim.toNat)) :
    encodeRule src len hi lim s = .raised .overlap 0 := by
  simp [encodeRule, inRange_eq_true_iff.2 hsrc, regionOk_eq_true_iff.2 ⟨hlim, hhi⟩, overlaps_eq_true_iff.2 h]

theorem decodeRule_badAddr {s : State} {src len dst cap : Word}
    (h : s.params.wmemSize < src.toNat + len.toNat ∨ s.params.wmemSize < dst.toNat + cap.toNat) :
    decodeRule src len dst cap s = .raised .badAddr 0 := by
  obtain hsrc | hdst := h
  · simp [decodeRule, inRange_eq_false hsrc]
  · simp [decodeRule, inRange_eq_false hdst]

theorem decodeRule_overlap {s : State} {src len dst cap : Word} (hsrc : src.toNat + len.toNat ≤ s.params.wmemSize)
    (hdst : dst.toNat + cap.toNat ≤ s.params.wmemSize) (h : meets src.toNat len.toNat dst.toNat cap.toNat) :
    decodeRule src len dst cap s = .raised .overlap 0 := by
  simp [decodeRule, inRange_eq_true_iff.2 hsrc, inRange_eq_true_iff.2 hdst, overlaps_eq_true_iff.2 h]

/-- Settles O34: each command's range checks; ENCINIT and DECINIT make theirs once their SEQ requirement is met. -/
theorem addressFaultsArePrecise : Obligations.AddressFaultsArePrecise := fun _ _ hl =>
  ⟨fun h => exec_faults_precise hl (countRule_badAddr h) rfl,
    fun h => ⟨exec_faults_precise hl (stcntRule_badAddr h) rfl, exec_faults_precise hl (ldcntRule_badAddr h) rfl⟩,
    fun hsymv h => exec_faults_precise hl (encinitRule_badAddr hsymv h) rfl,
    fun hlutv h => exec_faults_precise hl (decinitRule_badAddr hlutv h) rfl,
    fun h => exec_faults_precise hl (encodeRule_badAddr h) rfl,
    fun h => exec_faults_precise hl (decodeRule_badAddr h) rfl,
    fun h => exec_faults_precise hl (expandRule_badAddr h) rfl,
    fun h => exec_faults_precise hl (packRule_badAddr h) rfl⟩

/-- Settles O35: the overlap check of each command with an input and an output, after its range checks. -/
theorem overlapFaultsArePrecise : Obligations.OverlapFaultsArePrecise := by
  intro s l hl n a0 a1 a2 a3 bad hsrc
  exact ⟨fun hlim hhi h => exec_faults_precise hl (encodeRule_overlap hsrc hlim hhi h) rfl,
    fun hdst h => exec_faults_precise hl (decodeRule_overlap hsrc hdst h) rfl,
    fun hdst h => exec_faults_precise hl (expandRule_overlap hsrc hdst h) rfl,
    fun hdst h => exec_faults_precise hl (packRule_overlap hsrc hdst h) rfl⟩

end Sys2Proof.Claims
end

section
/-! PROOF. Command words (30_encoding.md R90 to R97): the decoder and the encoder are inverse, and the engine's turn on
a word that decodes and on one that does not (45_control.md R212, 60_exceptions.md R264). -/

namespace Sys2Proof.Claims

open Sys2Proof.Machine

/-! ### The fields of a word -/

theorem fields_append (w : Word) : rsvdField w ++ immField w ++ opField w = w := by
  refine BitVec.eq_of_getLsbD_eq fun i hi => ?_
  simp only [BitVec.getLsbD_append, opField, immField, rsvdField, BitVec.getLsbD_extractLsb']
  split_ifs <;> simp <;> grind

theorem encoding_statement (i : Instr) : Laws.Encoding.Statement i :=
  match i with
  | .nop => Laws.Encoding.nop
  | .count => Laws.Encoding.count
  | .norm => Laws.Encoding.norm
  | .symtab => Laws.Encoding.symtab
  | .lutgen => Laws.Encoding.lutgen
  | .encinit => Laws.Encoding.encinit
  | .encput sym => Laws.Encoding.encput sym
  | .encflush => Laws.Encoding.encflush
  | .decinit => Laws.Encoding.decinit
  | .decget => Laws.Encoding.decget
  | .encode => Laws.Encoding.encode
  | .decode => Laws.Encoding.decode
  | .expand => Laws.Encoding.expand
  | .pack => Laws.Encoding.pack
  | .stcnt => Laws.Encoding.stcnt
  | .ldcnt => Laws.Encoding.ldcnt

/-- The model's three checks are R94's. -/
theorem wordWellFormed_iff {w : Word} :
    wordWellFormed w = true ↔
      (w.extractLsb' 0 8).toNat ≤ 0x0F ∧ w.extractLsb' 16 16 = 0 ∧
        (w.extractLsb' 8 8 = 0 ∨ w.extractLsb' 0 8 = 0x06) := by
  simp only [wordWellFormed, opDefined, rsvdZero, immAllowed, Bool.and_eq_true, Bool.or_eq_true, decide_eq_true_eq,
    beq_iff_eq, and_assoc]
  rw [or_comm]
  rfl

/-! ### The well-formed words are the commands' words -/

/-- The commands without a field in their word. -/
def fieldless : List Instr :=
  [.nop, .count, .norm, .symtab, .lutgen, .encinit, .encflush, .decinit, .decget, .encode, .decode, .expand, .pack,
    .stcnt, .ldcnt]

theorem exists_fieldless {op : Byte} (h : op.toNat ≤ 0x0F) (h6 : op ≠ 0x06) :
    ∃ i ∈ fieldless, opcodeOf i = op ∧ immOf i = 0 := by
  revert op
  decide

theorem exists_instr {op imm : Byte} (h : op.toNat ≤ 0x0F) (himm : imm = 0 ∨ op = 0x06) :
    ∃ i, opcodeOf i = op ∧ immOf i = imm := by
  by_cases h6 : op = 0x06
  · exact ⟨.encput imm, h6.symm, rfl⟩
  · obtain ⟨i, -, hop, hi⟩ := exists_fieldless h h6
    exact ⟨i, hop, hi.trans (himm.resolve_right h6).symm⟩

theorem exists_eq_encodeWord {w : Word} (h : wordWellFormed w = true) : ∃ i, w = encodeWord i := by
  obtain ⟨hop, hrsvd, himm⟩ := wordWellFormed_iff.1 h
  obtain ⟨i, hopi, himmi⟩ := exists_instr hop himm
  refine ⟨i, ?_⟩
  rw [← fields_append w, encodeWord, hopi, himmi]
  exact congrArg (· ++ immField w ++ opField w) hrsvd

theorem decodeOp_opcodeOf (i : Instr) : decodeOp (opcodeOf i) (immOf i) = some i := by
  cases i <;> rfl

theorem decodeWord_encodeWord (i : Instr) : decodeWord (encodeWord i) = .ok i := by
  obtain ⟨hwf, hop, himm, -⟩ := encoding_statement i
  simp only [wordWellFormed, Bool.and_eq_true] at hwf
  simp [decodeWord, hwf, hop, himm, decodeOp_opcodeOf]

theorem wordWellFormed_of_decodeWord {w : Word} {i : Instr} (h : decodeWord w = .ok i) : wordWellFormed w = true := by
  by_contra hwf
  obtain ⟨e, he⟩ := decodeWord_error_of_malformed w (Bool.eq_false_iff.2 hwf)
  rw [he] at h
  cases h

theorem decodeWord_eq_ok_iff {w : Word} {i : Instr} : decodeWord w = .ok i ↔ w = encodeWord i := by
  constructor
  · intro h
    obtain ⟨j, rfl⟩ := exists_eq_encodeWord (wordWellFormed_of_decodeWord h)
    rw [decodeWord_encodeWord] at h
    cases h
    rfl
  · rintro rfl
    exact decodeWord_encodeWord i

/-- Settles O52: the well-formed words are the commands' words, and the decoder undoes the encoder on those. -/
theorem decodingIsABijection : Obligations.DecodingIsABijection := by
  refine ⟨fun w i => decodeWord_eq_ok_iff, fun w => ?_⟩
  rw [← wordWellFormed_iff]
  refine ⟨fun ⟨i, hi⟩ => wordWellFormed_of_decodeWord hi, fun h => ?_⟩
  obtain ⟨i, hi⟩ := exists_eq_encodeWord h
  exact ⟨i, decodeWord_eq_ok_iff.2 hi⟩

/-- Settles O53: six of the words are the encodings of their commands; each of the other three fails its own check. -/
theorem sampleWordsDecode : Obligations.SampleWordsDecode :=
  ⟨decodeWord_encodeWord .nop, decodeWord_encodeWord .norm, decodeWord_encodeWord .symtab,
    decodeWord_encodeWord (.encput 0x41), decodeWord_encodeWord .decode, decodeWord_encodeWord .pack, rfl, rfl, rfl⟩

/-! ### The engine's turn -/

/-- An empty inbox, and an inbox with the engine's turn first, give the engine the turn. -/
theorem step_engine_next {s : State} {rest : List Event} (h : s.inbox = .engine :: rest) :
    step s = engineTurn { s with inbox := rest } :=
  step_event s .engine rest h

/-- Settles O54: at the engine's turn the latched word decides. -/
theorem stepRunsTheLatchedCommand : Obligations.StepRunsTheLatchedCommand := fun s l i hl hd =>
  ⟨fun h => (step_engine s h).trans (engineTurn_ok s l i hl hd), fun rest h =>
    (step_engine_next h).trans (engineTurn_ok { s with inbox := rest } l i hl hd)⟩

theorem engineTurn_malformed {s : State} {l : Latch} (hl : s.latch = some l) (h : wordWellFormed l.word = false) :
    engineTurn s = .next (faulted l .badCmd l.word s) := by
  obtain ⟨e, he⟩ := decodeWord_error_of_malformed l.word h
  rw [engineTurn_bad s l e hl he, badCommand, recordFault_eq_faulted hl]

/-- Settles O36: a word that fails one of R94's checks decodes to no command. -/
theorem malformedWordsFaultBadCmd : Obligations.MalformedWordsFaultBadCmd := by
  intro s l hl hbad
  have hwf : wordWellFormed l.word = false := by
    rw [← Bool.not_eq_true, wordWellFormed_iff]
    rintro ⟨hop, hrsvd, himm⟩
    obtain h | h | ⟨h8, h6⟩ := hbad
    · omega
    · exact h hrsvd
    · exact himm.elim h8 h6
  exact ⟨fun h => (step_engine s h).trans (engineTurn_malformed hl hwf), fun rest h =>
    (step_engine_next h).trans (engineTurn_malformed (s := { s with inbox := rest }) hl hwf)⟩

end Sys2Proof.Claims
end

section
/-! PROOF. The donor from its description (40_frequency_model.md R115): there is one description, and it names one
index. -/

namespace Sys2Proof.Claims

open Sys2Proof.Machine

/-- R115: `d` is the lowest index among the symbols of the smallest width greater than 1. -/
def IsDonor (cum : Vector Nat 257) (d : Nat) : Prop :=
  d < 256 ∧ 1 < width cum d ∧
    ∀ j, j < 256 → 1 < width cum j → width cum d ≤ width cum j ∧ (width cum j = width cum d → d ≤ j)

theorem IsDonor.unique {cum : Vector Nat 257} {d e : Nat} (hd : IsDonor cum d) (he : IsDonor cum e) : d = e := by
  obtain ⟨hd256, hdw, hdmin⟩ := hd
  obtain ⟨he256, hew, hemin⟩ := he
  have hde := hdmin e he256 hew
  have hed := hemin d hd256 hdw
  omega

theorem donor_eq_some_iff {cum : Vector Nat 257} {d : Nat} : donor cum = some d ↔ IsDonor cum d := by
  refine ⟨donor_eq_some, fun h => ?_⟩
  cases hdonor : donor cum with
  | none => exact absurd (donor_eq_none hdonor d h.1) (Nat.not_le.2 h.2.1)
  | some e => exact congrArg some (IsDonor.unique (donor_eq_some hdonor) h)

theorem donor_eq_none_iff {cum : Vector Nat 257} : donor cum = none ↔ ∀ j, j < 256 → width cum j ≤ 1 := by
  refine ⟨donor_eq_none, fun h => Option.eq_none_iff_forall_ne_some.2 fun d hd => ?_⟩
  obtain ⟨hd256, hw, -⟩ := donor_eq_some hd
  exact Nat.not_le.2 hw (h d hd256)

/-- Settles O4: the search finds R115's index, which is unique, and finds none only where there is none. -/
theorem donorIsLowestOfSmallestWidth : Obligations.DonorIsLowestOfSmallestWidth := fun _ =>
  ⟨fun _ => donor_eq_some_iff, donor_eq_none_iff⟩

end Sys2Proof.Claims
end

section
/-! PROOF. The abortive faults of the coder and of the composites, and what their rows of 60_exceptions.md R269 leave
unspecified (42_rans_codec.md R151, R152, R157, R159). -/

namespace Sys2Proof.Claims

open Sys2Proof.Machine

/-! ### ENCPUT -/

theorem encputRule_zeroFreq {s : State} {sym : Byte} (hm : s.mode = .enc)
    (hthr : (entry s.symtab sym.toNat).thr = 0) : encputRule sym s = .raised .zeroFreq (sym.setWidth 32) := by
  rw [encputRule, if_neg (not_not.2 hm), if_pos hthr]

/-- R152's loop that would take more turns than there is room for ends at the limit. -/
theorem encRenorm_of_no_room {thr room x wptr : Nat} {m : Memory} (h : ∀ j, j ≤ room → thr ≤ x / 256 ^ j) :
    encRenorm thr room x wptr m = .error (wptr - room) := by
  cases hr : encRenorm thr room x wptr m with
  | ok e =>
    obtain ⟨k, hk, hx, -, hstop, -⟩ := encRenorm_eq_ok hr
    have := h k hk
    omega
  | error wp => rw [(encRenorm_eq_error hr).1]

theorem encputRule_outOverflow {s : State} {sym : Byte} (hm : s.mode = .enc)
    (hthr : (entry s.symtab sym.toNat).thr ≠ 0) (hlim : s.wlim.toNat ≤ s.wptr.toNat)
    (hsize : s.wptr.toNat ≤ s.params.wmemSize)
    (h : ∀ j, j ≤ s.wptr.toNat - s.wlim.toNat → (entry s.symtab sym.toNat).thr.toNat ≤ s.state.toNat / 256 ^ j) :
    encputRule sym s = .raised .outOverflow s.wlim := by
  have hregion : regionOk s.params.wmemSize s.wlim.toNat s.wptr.toNat = true := regionOk_eq_true_iff.2 ⟨hlim, hsize⟩
  have hend : s.wptr.toNat - (s.wptr.toNat - s.wlim.toNat) = s.wlim.toNat := by omega
  rw [encputRule, if_neg (not_not.2 hm), if_neg hthr, if_neg (by simp [hregion]), encRenorm_of_no_room h, hend]
  simp only [BitVec.ofNat_toNat, BitVec.setWidth_eq]

/-- A draw of an empty interval, or of one turned around, draws nothing. -/
theorem sameOutside_drawBytes (n lo hi : Nat) (m : Memory) : sameOutside m (drawBytes n lo hi m) lo hi := fun a ha =>
  readByte_storeBytes_outside m lo a _ (by simp only [List.length_map, List.length_range]; omega)

/-- Settles O16: the loop ends at WLIM, and R269's row draws WPTR and the bytes from WLIM up to it. -/
theorem encputOutOfRoomFaults : Obligations.EncputOutOfRoomFaults := by
  intro s l sym hl hm hthr hlim hsize h
  obtain ⟨hlow, hhigh⟩ := drawBetween_bounds s.draws .wptr s.wlim s.wptr hlim
  exact ⟨_, exec_faults_abortive hl (encputRule_outOverflow hm hthr hlim hsize h) rfl, rfl, hlow, hhigh,
    sameOutside_drawBytes _ _ _ _⟩

/-! ### DECGET -/

theorem decgetRule_emptyModel {s : State} (hm : s.mode = .dec) (hcum : entry s.cum 256 = 0) :
    decgetRule s = .raised .emptyModel 0 := by
  rw [decgetRule, if_neg (not_not.2 hm), if_pos hcum]

/-- Settles O23: each entry fault is the rule's check, and R269 names no state for the abortive ones. -/
theorem putAndGetEntryFaults : Obligations.PutAndGetEntryFaults := fun _ _ hl =>
  ⟨fun sym => ⟨fun hm => exec_faults_precise hl (encputRule_seq sym hm) rfl,
      fun hm hthr => exec_faults_abortive hl (encputRule_zeroFreq hm hthr) rfl⟩,
    fun hm => exec_faults_precise hl (decgetRule_seq hm) rfl,
    fun hm hcum => exec_faults_abortive hl (decgetRule_emptyModel hm hcum) rfl⟩

/-- R159's loop that would take more bytes than there are ends at the end of the input. -/
theorem decRenorm_of_no_input {m : Memory} {avail x p : Nat} (h : ∀ j, j ≤ avail → shiftIn m x p j < 2 ^ 23) :
    decRenorm m avail x p = .error (p + avail) := by
  induction avail generalizing x p with
  | zero =>
    have hx : ¬ Config.lower ≤ x := Nat.not_le.2 (h 0 (le_refl _))
    rw [decRenorm.eq_def, if_neg hx]
    rfl
  | succ n ih =>
    have hx : ¬ Config.lower ≤ x := Nat.not_le.2 (h 0 (by omega))
    have hp : p + (n + 1) = p + 1 + n := by omega
    rw [decRenorm.eq_def, if_neg hx, hp]
    exact ih fun j hj => shiftIn_succ m x p j ▸ h (j + 1) (by omega)

theorem decgetRule_inUnderrun {s : State} (hm : s.mode = .dec) (hcum : entry s.cum 256 ≠ 0)
    (hlim : s.rptr.toNat ≤ s.rlim.toNat) (hsize : s.rlim.toNat ≤ s.params.wmemSize)
    (h : ∀ j, j ≤ s.rlim.toNat - s.rptr.toNat →
      shiftIn s.wmem (advanced s (lookedUp s)) s.rptr.toNat j < 2 ^ 23) :
    decgetRule s = .raised .inUnderrun s.rlim := by
  have hregion : regionOk s.params.wmemSize s.rptr.toNat s.rlim.toNat = true := regionOk_eq_true_iff.2 ⟨hlim, hsize⟩
  have hend : s.rptr.toNat + (s.rlim.toNat - s.rptr.toNat) = s.rlim.toNat := by omega
  rw [decgetRule, if_neg (not_not.2 hm), if_neg hcum, if_neg (by simp [hregion]), decAdvance_eq_advanced,
    decRenorm_of_no_input h, hend]
  simp only [BitVec.ofNat_toNat, BitVec.setWidth_eq]

/-- Settles O21: the loop ends at RLIM, and R269's row draws RPTR. -/
theorem decgetUnderrunFaults : Obligations.DecgetUnderrunFaults := by
  intro s l hl hm hcum hlim hsize h
  obtain ⟨hlow, hhigh⟩ := drawBetween_bounds s.draws .rptr s.rptr s.rlim hlim
  exact ⟨_, exec_faults_abortive hl (decgetRule_inUnderrun hm hcum hlim hsize h) rfl, rfl, hlow, hhigh⟩

/-! ### The composites -/

/-- An abortive fault of any command, in the terms of the statements. -/
theorem exec_eq_aborted {i : Instr} {s t : State} {l : Latch} {c : FaultCode} (hl : s.latch = some l)
    (hs : s.fault = none) (hc : t.fault = some c) (hp : faultPrecise c = false) (ht : exec i s = .next t) :
    t = aborted l c t.finfo (leaveUnspecified i c l.ops s) := by
  obtain ⟨info, hraised, rfl⟩ := exec_eq_next_of_fault_some hl hs ht hc
  have hexec := exec_faults_abortive hl hraised hp
  rw [ht] at hexec
  injection hexec with hexec
  rw [hexec]
  rfl

/-- Settles O25: the row of R269 is applied to the state at entry, so all the steps have done by then is gone. -/
theorem compositeFaultsKeepUnnamedState : Obligations.CompositeFaultsKeepUnnamedState := by
  intro s t l c hl hs hc hp
  refine ⟨fun ht => ?_, fun ht => ?_⟩
  · rw [exec_eq_aborted hl hs hc hp ht]
    exact ⟨rfl, sameOutside_drawBytes _ _ _ _⟩
  · rw [exec_eq_aborted hl hs hc hp ht]
    exact ⟨rfl, sameOutside_drawBytes _ _ _ _⟩

end Sys2Proof.Claims
end

section
/-! PROOF. A STATUS read (10_state.md R26, 60_exceptions.md R261): the word bit by bit. -/

namespace Sys2Proof.Claims

open Sys2Proof.Machine

theorem fcodeField_mem_fcodes (s : State) : (s.fault, fcodeField s) ∈ fcodes := by
  unfold fcodeField
  cases s.fault with
  | none => decide
  | some c => cases c <;> decide

theorem getLsbD_modeField_zero (m : Mode) : (modeField m).getLsbD 0 = decide (m = .enc) := by cases m <;> rfl

theorem getLsbD_modeField_one (m : Mode) : (modeField m).getLsbD 1 = decide (m = .dec) := by cases m <;> rfl

theorem getLsbD_flagBit_zero (b : Bool) : (flagBit b).getLsbD 0 = b := by cases b <;> rfl

/-- A part of a word, bit by bit. -/
theorem extractLsb'_eq_of_getLsbD {w : Word} {start len : Nat} {v : BitVec len}
    (h : ∀ i, i < len → w.getLsbD (start + i) = v.getLsbD i) : w.extractLsb' start len = v := by
  refine BitVec.eq_of_getLsbD_eq fun i hi => ?_
  rw [BitVec.getLsbD_extractLsb', h i hi]
  simp [hi]

/-- The flags and MODE. -/
theorem getLsbD_statusWord (s : State) :
    (statusWord s).getLsbD 0 = s.busy ∧ (statusWord s).getLsbD 1 = s.done ∧
      (statusWord s).getLsbD 2 = s.fault.isSome ∧ (statusWord s).getLsbD 3 = s.cmdovr ∧
      (statusWord s).getLsbD 4 = s.accerr ∧ (statusWord s).getLsbD 8 = decide (s.mode = .enc) ∧
      (statusWord s).getLsbD 9 = decide (s.mode = .dec) ∧ (statusWord s).getLsbD 12 = s.cumv ∧
      (statusWord s).getLsbD 13 = s.symv ∧ (statusWord s).getLsbD 14 = s.lutv := by
  simp only [statusWord, BitVec.getLsbD_append]
  exact ⟨getLsbD_flagBit_zero _, getLsbD_flagBit_zero _, getLsbD_flagBit_zero _, getLsbD_flagBit_zero _,
    getLsbD_flagBit_zero _, getLsbD_modeField_zero _, getLsbD_modeField_one _, getLsbD_flagBit_zero _,
    getLsbD_flagBit_zero _, getLsbD_flagBit_zero _⟩

theorem extractLsb'_statusWord_fcode (s : State) : (statusWord s).extractLsb' 16 8 = fcodeField s :=
  extractLsb'_eq_of_getLsbD fun i hi => by
    have hindex : 16 + i - 1 - 1 - 1 - 1 - 1 - 3 - 2 - 2 - 1 - 1 - 1 - 1 = i := by omega
    simp only [statusWord, BitVec.getLsbD_append, hindex]
    simp (disch := omega) only [if_neg, if_pos]

/-- The reserved bits. -/
theorem extractLsb'_statusWord_reserved (s : State) :
    (statusWord s).extractLsb' 5 3 = 0 ∧ (statusWord s).extractLsb' 10 2 = 0 ∧ (statusWord s).getLsbD 15 = false ∧
      (statusWord s).extractLsb' 24 8 = 0 := by
  refine ⟨extractLsb'_eq_of_getLsbD fun i hi => ?_, extractLsb'_eq_of_getLsbD fun i hi => ?_, ?_,
    extractLsb'_eq_of_getLsbD fun i hi => ?_⟩ <;>
  · simp only [statusWord, BitVec.getLsbD_append]
    simp (disch := omega) [if_neg, if_pos]

/-- Settles O43: each field of the word stands where R26 puts it. -/
theorem statusReadShowsItsFields : Obligations.StatusReadShowsItsFields := by
  intro s
  obtain ⟨hbusy, hdone, hfault, hcmdovr, haccerr, henc, hdec, hcumv, hsymv, hlutv⟩ := getLsbD_statusWord s
  refine ⟨statusWord s, stepEvent_read_reg (r := .status) (by simp [busyHides]), hbusy, hdone, hfault, hcmdovr,
    haccerr, henc, hdec, hcumv, hsymv, hlutv, ?_, extractLsb'_statusWord_reserved s⟩
  rw [extractLsb'_statusWord_fcode]
  exact fcodeField_mem_fcodes s

end Sys2Proof.Claims
end

section
/-! PROOF. Which host accesses are inert, refused or flagged (20_memory.md R64, R66 to R68, R72), and everything an access
that is performed can do (45_control.md R221). -/

namespace Sys2Proof.Claims

open Sys2Proof.Machine

/-- Settles O48: the model's check is R66 and R67, and an access that fails it has no step. -/
theorem accessesAreRefusedByRule : Obligations.AccessesAreRefusedByRule := by
  intro s w off v
  refine ⟨fun h => ⟨_, _, stepEvent_read h, stepEvent_write v h⟩, fun h => ?_⟩
  have hnot : ¬ permitted s.params.wmemSize w off = true := fun hp => h (permitted_iff.1 hp)
  exact ⟨if_neg hnot, if_neg hnot⟩

/-- Below 0xC04 and in the SYMTAB window only words are accessed (R66). -/
theorem width_of_accessAllowed {size off : Nat} {w : Width} (h : accessAllowed size w off) (hoff : off < 0xC04) :
    w = .w32 ∧ off % 4 = 0 := by
  obtain ⟨-, hword⟩ | h | h | h | h | h := h
  · exact hword
  all_goals omega

/-! ### Registers -/

theorem regOffset_lt (r : HostReg) : regOffset r < 0xC04 := by cases r <;> decide

/-- The registers the host cannot write. -/
def readOnlyRegs : List HostReg :=
  [.id, .version, .paramProbbits, .paramLower, .paramWmemsize, .paramNsym, .finfo, .state, .wptr, .wend, .wlim, .rptr,
    .rlim, .result, .total, .outlen, .fop]

theorem writeReg_readOnly {r : HostReg} (h : r ∈ readOnlyRegs) (v : Word) (s : State) : writeReg r v s = s := by
  cases r with
  | cmd | status | ctrl | arg0 | arg1 | arg2 | arg3 => exact absurd h (by decide)
  | _ => rfl

/-- The registers a running command hides. -/
def hiddenRegs : List HostReg :=
  [.finfo, .state, .wptr, .wend, .wlim, .rptr, .rlim, .result, .total, .outlen, .fop]

theorem stepEvent_read_hidden {r : HostReg} (h : r ∈ hiddenRegs) {s : State} (hbusy : s.busy = true) :
    stepEvent (.access (.read .w32 (regOffset r))) s = .next (answerDraw .w32 s) := by
  have hhides : busyHides r = true := by revert r; decide
  rw [stepEvent_read (accessAllowed_regOffset _ r)]
  simp only [hostRead, placeAt_regOffset, hbusy, hhides]
  rfl

/-! ### Windows and gaps -/

theorem regAt_eq_none {off : Nat} (h : (0x018 ≤ off ∧ off < 0x020) ∨ 0x068 ≤ off) : regAt off = none := by
  unfold regAt
  split
  case h_25 => rfl
  all_goals omega

theorem placeAt_gap {size off : Nat}
    (h : (0x018 ≤ off ∧ off < 0x020) ∨ (0x068 ≤ off ∧ off < 0x400) ∨ (0xC04 ≤ off ∧ off < 0x1000) ∨
      (0x2000 ≤ off ∧ off < 0x4000) ∨ (0x8000 ≤ off ∧ off < 0x10000)) : placeAt size off = .reserved := by
  obtain hlow | hhigh := Nat.lt_or_ge off 0x400
  · rw [placeAt, if_pos hlow, regAt_eq_none (by omega)]
  · obtain h | h | h : (0xC04 ≤ off ∧ off < 0x1000) ∨ (0x2000 ≤ off ∧ off < 0x4000) ∨
        (0x8000 ≤ off ∧ off < 0x10000) := by omega
    all_goals simp (disch := omega) only [placeAt, if_neg, if_pos]

/-- The place is in a window that the host can only read. -/
def IsReadOnlyWindow (p : Place) : Prop :=
  match p with
  | .cum _ | .symtab _ _ | .lut _ => True
  | .reg _ | .cnt _ | .wmem _ | .reserved | .outside => False

/-- The place is in one of the windows. -/
def IsWindow (p : Place) : Prop :=
  match p with
  | .cnt _ | .cum _ | .symtab _ _ | .lut _ | .wmem _ => True
  | .reg _ | .reserved | .outside => False

theorem placeAt_readOnlyWindow {size off : Nat}
    (h : (0x800 ≤ off ∧ off < 0xC04) ∨ (0x1000 ≤ off ∧ off < 0x2000) ∨ (0x4000 ≤ off ∧ off < 0x8000)) :
    IsReadOnlyWindow (placeAt size off) := by
  obtain h | h | h := h <;> simp (disch := omega) only [placeAt, if_neg, if_pos, IsReadOnlyWindow]

theorem placeAt_window {size off : Nat} {w : Width} (hallowed : accessAllowed size w off)
    (h : (0x400 ≤ off ∧ off < 0xC04) ∨ (0x1000 ≤ off ∧ off < 0x2000) ∨ (0x4000 ≤ off ∧ off < 0x8000) ∨
      0x10000 ≤ off) : IsWindow (placeAt size off) := by
  have hpos := widthBytes_pos w
  have hend : 0x10000 ≤ off → off < 0x10000 + size := fun h => by unfold accessAllowed at hallowed; omega
  obtain h | h | h | h | h : (0x400 ≤ off ∧ off < 0x800) ∨ (0x800 ≤ off ∧ off < 0xC04) ∨
    (0x1000 ≤ off ∧ off < 0x2000) ∨ (0x4000 ≤ off ∧ off < 0x8000) ∨
      (0x10000 ≤ off ∧ off < 0x10000 + size) := by omega
  all_goals simp (disch := omega) only [placeAt, if_neg, if_pos, IsWindow]

theorem hostWrite_readOnlyWindow {s : State} {off : Nat} (w : Width) (v : Word) (hidle : s.busy = false)
    (h : IsReadOnlyWindow (placeAt s.params.wmemSize off)) : hostWrite w off v s = s := by
  unfold hostWrite
  cases hp : placeAt s.params.wmemSize off <;> rw [hp] at h
  case cum | symtab | lut => exact if_neg (Bool.eq_false_iff.1 hidle)
  all_goals exact h.elim

theorem hostWrite_window_busy {s : State} {off : Nat} (w : Width) (v : Word) (hbusy : s.busy = true)
    (h : IsWindow (placeAt s.params.wmemSize off)) : hostWrite w off v s = flagAccess s := by
  unfold hostWrite
  cases hp : placeAt s.params.wmemSize off <;> rw [hp] at h
  case cnt | cum | symtab | lut | wmem => exact if_pos hbusy
  all_goals exact h.elim

theorem hostRead_window_busy {s : State} {off : Nat} (w : Width) (hbusy : s.busy = true)
    (h : IsWindow (placeAt s.params.wmemSize off)) : hostRead w off s = answerDraw w (flagAccess s) := by
  unfold hostRead
  cases hp : placeAt s.params.wmemSize off <;> rw [hp] at h
  case cnt | cum | symtab | lut | wmem => exact if_pos hbusy
  all_goals exact h.elim

/-- Settles O47: a read-only register's write does nothing, a read-only window's does nothing while idle, and a gap is no
place at all. -/
theorem reservedAndReadOnlyAreInert : Obligations.ReservedAndReadOnlyAreInert := by
  intro s w off v hallowed
  refine ⟨fun hoff => ?_, fun hidle hoff => ?_, fun hoff => ?_⟩
  · obtain ⟨r, hr, rfl⟩ : ∃ r ∈ readOnlyRegs, regOffset r = off := List.mem_map.1 hoff
    obtain ⟨rfl, -⟩ := width_of_accessAllowed hallowed (regOffset_lt r)
    rw [stepEvent_write_reg, writeReg_readOnly hr]
  · rw [stepEvent_write v hallowed, hostWrite_readOnlyWindow w v hidle (placeAt_readOnlyWindow hoff)]
  · rw [stepEvent_write v hallowed, stepEvent_read hallowed]
    simp only [hostWrite, hostRead, placeAt_gap hoff, true_and]
    rfl

/-- Settles O49: while a command is pending every window is flagged, and a hidden register answers a draw. -/
theorem busyWindowAccessesAreFlagged : Obligations.BusyWindowAccessesAreFlagged := by
  intro s w off v hbusy hallowed
  refine ⟨fun hoff => ?_, fun hoff => ?_, fun hoff => ?_⟩
  · have hwindow := placeAt_window hallowed hoff
    rw [stepEvent_write v hallowed, hostWrite_window_busy w v hbusy hwindow, stepEvent_read hallowed,
      hostRead_window_busy w hbusy hwindow]
    exact ⟨rfl, _, rfl⟩
  · obtain ⟨i, rfl⟩ := exists_argReg_of_mem hoff
    obtain ⟨rfl, -⟩ := width_of_accessAllowed hallowed (by fin_cases i <;> decide)
    exact stepEvent_write_arg_busy i v hbusy
  · obtain ⟨r, hr, rfl⟩ : ∃ r ∈ hiddenRegs, regOffset r = off := List.mem_map.1 hoff
    obtain ⟨rfl, -⟩ := width_of_accessAllowed hallowed (regOffset_lt r)
    exact ⟨_, stepEvent_read_hidden hr hbusy⟩

/-! ### Everything a performed access can do -/

/-- What a host access that is performed does to the block. Those that a running command could see need BUSY = 0. -/
inductive HostEffect (s : State) : State → Prop where
  /-- A read, a flagged access, or nothing. -/
  | answered (flag : Bool) (v : Option Word) (n : Nat) : HostEffect s { s with accerr := flag, rdata := v, draws := n }
  /-- A write to ARG0-ARG3. -/
  | argued (a : Operands) (hidle : s.busy = false) : HostEffect s { s with args := a }
  /-- A dropped CMD write. -/
  | overrun : HostEffect s { s with cmdovr := true }
  /-- An accepted CMD write. -/
  | accepted (w : Word) (hidle : s.busy = false) (hfault : s.fault = none) : HostEffect s (accept w s)
  /-- A STATUS write. -/
  | cleared (v : Word) : HostEffect s (clearStatus v s)
  /-- A CTRL write. -/
  | controlled (v : Word) : HostEffect s (setCtrl v s)
  /-- A write to CNT. -/
  | recounted (cnt : Vector Word 256) (hidle : s.busy = false) : HostEffect s { dropTables s with cnt := cnt }
  /-- A write to the WMEM window. -/
  | stored (a : Nat) (bs : List Byte) (hidle : s.busy = false) (hsize : a + bs.length ≤ s.params.wmemSize) :
    HostEffect s { s with wmem := storeBytes s.wmem a bs }

theorem HostEffect.nothing (s : State) : HostEffect s s := .answered s.accerr s.rdata s.draws

theorem HostEffect.flagged (s : State) : HostEffect s (flagAccess s) := .answered true s.rdata s.draws

theorem hostEffect_hostRead (w : Width) (off : Nat) (s : State) : HostEffect s (hostRead w off s) := by
  rw [hostRead_frame]
  exact .answered _ _ _

theorem hostEffect_writeCmd (w : Word) (s : State) : HostEffect s (writeCmd w s) := by
  by_cases h : s.busy = true ∨ s.fault ≠ none
  · exact writeCmd_dropped w h ▸ .overrun
  · rw [not_or, Bool.not_eq_true, not_not] at h
    obtain ⟨hbusy, hfault⟩ := h
    exact writeCmd_accepted w hbusy hfault ▸ .accepted w hbusy hfault

theorem hostEffect_writeArg (i : Fin 4) (v : Word) (s : State) : HostEffect s (writeArg i v s) := by
  cases hbusy : s.busy with
  | true => exact writeArg_busy i v hbusy ▸ .flagged s
  | false =>
    rw [writeArg_idle i v hbusy]
    fin_cases i <;> exact .argued _ hbusy

theorem hostEffect_writeReg (r : HostReg) (v : Word) (s : State) : HostEffect s (writeReg r v s) := by
  cases r with
  | cmd => exact hostEffect_writeCmd v s
  | status => exact .cleared v
  | ctrl => exact .controlled v
  | arg0 => exact hostEffect_writeArg 0 v s
  | arg1 => exact hostEffect_writeArg 1 v s
  | arg2 => exact hostEffect_writeArg 2 v s
  | arg3 => exact hostEffect_writeArg 3 v s
  | _ => exact .nothing s

theorem hostEffect_writeReadOnly (s : State) : HostEffect s (writeReadOnly s) := by
  unfold writeReadOnly
  split
  · exact .flagged s
  · exact .nothing s

theorem placeAt_eq_wmem {size off a : Nat} (h : placeAt size off = .wmem a) : off = 0x10000 + a := by
  by_cases hlow : off < 0x400
  · rw [placeAt, if_pos hlow] at h
    cases hr : regAt off <;> rw [hr] at h <;> cases h
  · simp only [placeAt, if_neg hlow] at h
    split_ifs at h
    have := Place.wmem.inj h
    omega

theorem hostEffect_writeCnt (i : Nat) (v : Word) (s : State) : HostEffect s (writeCnt i v s) := by
  cases hbusy : s.busy with
  | true => exact writeCnt_busy i v hbusy ▸ .flagged s
  | false => exact writeCnt_idle i v hbusy ▸ .recounted _ hbusy

theorem hostEffect_writeWmem {a : Nat} {w : Width} (v : Word) {s : State}
    (h : a + widthBytes w ≤ s.params.wmemSize) : HostEffect s (writeWmem a w v s) := by
  cases hbusy : s.busy with
  | true => exact writeWmem_busy a w v hbusy ▸ .flagged s
  | false => exact writeWmem_idle a w v hbusy ▸ .stored a _ hbusy (by rwa [leBytes_length])

theorem hostEffect_hostWrite {w : Width} {off : Nat} (v : Word) {s : State}
    (h : accessAllowed s.params.wmemSize w off) : HostEffect s (hostWrite w off v s) := by
  unfold hostWrite
  cases hp : placeAt s.params.wmemSize off with
  | reg r => exact hostEffect_writeReg r v s
  | cnt i => exact hostEffect_writeCnt i v s
  | cum | symtab | lut => exact hostEffect_writeReadOnly s
  | wmem a =>
    obtain rfl := placeAt_eq_wmem hp
    have hpos := widthBytes_pos w
    exact hostEffect_writeWmem v (by unfold accessAllowed at h; omega)
  | reserved | outside => exact .nothing s

/-- Every access that has a step is one of these. -/
theorem hostEffect_of_hostAccess {a : Access} {s t : State} (h : hostAccess a s = .next t) : HostEffect s t := by
  cases a with
  | read w off =>
    rw [hostAccess] at h
    split_ifs at h
    cases h
    exact hostEffect_hostRead w off s
  | write w off v =>
    rw [hostAccess] at h
    split_ifs at h with hp
    cases h
    exact hostEffect_hostWrite v (permitted_iff.1 hp)

theorem HostEffect.sameForEngine_of_busy {s t : State} (h : HostEffect s t) (hbusy : s.busy = true) :
    sameForEngine s t := by
  cases h with
  | answered | overrun | cleared | controlled => rfl
  | argued _ hidle | accepted _ hidle | recounted _ hidle | stored _ _ hidle =>
    exact absurd hbusy (Bool.eq_false_iff.1 hidle)

/-- With the handshake in order a STATUS write finds neither DONE nor FAULT to clear while a command is pending. -/
theorem HostEffect.handshake_of_busy {s t : State} (h : HostEffect s t) (hbusy : s.busy = true)
    (hshake : s.handshakeOk) : t.done = s.done ∧ t.fault = s.fault := by
  obtain ⟨hdone, hfault⟩ := hshake.1 hbusy
  cases h with
  | answered | overrun | controlled => exact ⟨rfl, rfl⟩
  | cleared v => simp [hdone, hfault]
  | argued _ hidle | accepted _ hidle | recounted _ hidle | stored _ _ hidle =>
    exact absurd hbusy (Bool.eq_false_iff.1 hidle)

/-- Settles O50: the effects that touch what the engine reads need BUSY = 0. -/
theorem busyAccessNeverDisturbsTheCommand : Obligations.BusyAccessNeverDisturbsTheCommand := fun s t _ hbusy ht =>
  have heffect : HostEffect s t := hostEffect_of_hostAccess ht
  ⟨heffect.sameForEngine_of_busy hbusy, heffect.handshake_of_busy hbusy⟩

end Sys2Proof.Claims
end

section
/-! PROOF. Everything a command's rule can do, once for all invariants: the effect of each primitive rule, and for ENCODE
and DECODE a chain of the effects of their steps (43_block_codec.md R181, R184). -/

namespace Sys2Proof.Claims

open Sys2Proof.Machine

/-! ### The effects -/

/-- `Effect j s t`: the rule of `j` that completes on `s` leaves `t`, with the checks it has passed. The stores of DECODE
(R184), its OUTLEN included, are the effect of DECODE itself. -/
inductive Effect : Instr → State → State → Prop where
  | nop (s : State) : Effect .nop s s
  | recounted {j : Instr} (s : State) (cnt : Vector Word 256) (hj : j ∈ [.count, .ldcnt]) :
    Effect j s { dropTables s with cnt := cnt }
  | normed (s : State) (hfits : countSum s.cnt 256 ≤ 0xFFFFFFFF) :
    Effect .norm s { dropTables s with
      cum := modelCum s.cnt, total := BitVec.ofNat 32 (countSum s.cnt 256), cumv := true }
  | described (s : State) (hcumv : s.cumv = true) :
    Effect .symtab s { s with symtab := buildSymtab s.cum, symv := true }
  | mapped (s : State) (hcumv : s.cumv = true) : Effect .lutgen s { s with lut := buildLut s.cum, lutv := true }
  | encOpened (s : State) (hi lim : Word) (hsymv : s.symv = true) (hlim : lim.toNat ≤ hi.toNat)
    (hsize : hi.toNat ≤ s.params.wmemSize) :
    Effect .encinit s { s with state := 0x00800000, wend := hi, wptr := hi, wlim := lim, mode := .enc }
  | put (s : State) (sym : Byte) (k : Nat) (hmode : s.mode = .enc) (hthr : (entry s.symtab sym.toNat).thr ≠ 0)
    (hsize : s.wptr.toNat ≤ s.params.wmemSize)
    (hturns : EncTurns (entry s.symtab sym.toNat).thr.toNat s.state.toNat k)
    (hroom : s.wlim.toNat + k ≤ s.wptr.toNat) :
    Effect (.encput sym) s (putState (entry s.symtab sym.toNat) k s)
  | encFlushed (s : State) (hmode : s.mode = .enc) (hroom : s.wlim.toNat + 4 ≤ s.wptr.toNat)
    (hsize : s.wptr.toNat ≤ s.params.wmemSize) : Effect .encflush s (flushed s)
  | decOpened (s : State) (src len : Word) (hlutv : s.lutv = true)
    (hsize : src.toNat + len.toNat ≤ s.params.wmemSize) (hlen : 4 ≤ len.toNat) :
    Effect .decinit s { s with
      state := memRead32 s.wmem src.toNat, rptr := src + 4, rlim := src + len, mode := .dec }
  | got (s : State) (x rptr : Word) (hmode : s.mode = .dec) (hrptr : rptr.toNat ≤ s.rlim.toNat)
    (hsize : s.rlim.toNat ≤ s.params.wmemSize) :
    Effect .decget s { s with state := x, rptr := rptr, result := decSymbol s }
  | stored {j : Instr} (s : State) (a : Nat) (bs : List Byte) (outlen : Word) (hj : j ∈ [.decode, .expand, .pack, .stcnt])
    (hsize : a + bs.length ≤ s.params.wmemSize) :
    Effect j s { s with wmem := storeBytes s.wmem a bs, outlen := outlen }

/-- `j` is a step of `i`: the command itself, or one of the primitives of a composite. -/
inductive StepOf : Instr → Instr → Prop where
  | self (i : Instr) : StepOf i i
  | encode {j : Instr} (hj : j ∈ [.count, .norm, .symtab, .encinit, .encflush]) : StepOf .encode j
  | encput (sym : Byte) : StepOf .encode (.encput sym)
  | decode {j : Instr} (hj : j ∈ [.norm, .symtab, .lutgen, .decinit, .decget]) : StepOf .decode j

/-- Effects of steps of `i`, one after the other. -/
def Chain (i : Instr) : State → State → Prop := Relation.ReflTransGen fun s t => ∃ j, StepOf i j ∧ Effect j s t

theorem Chain.single {i j : Instr} {s t : State} (hij : StepOf i j) (h : Effect j s t) : Chain i s t :=
  Relation.ReflTransGen.single ⟨j, hij, h⟩

/-- What every effect keeps, a chain keeps. -/
theorem Chain.keeps {i : Instr} {s t : State} (h : Chain i s t) {P : State → Prop}
    (hP : ∀ j u v, StepOf i j → Effect j u v → P u → P v) (hs : P s) : P t := by
  induction h with
  | refl => exact hs
  | tail _ hstep ih =>
    obtain ⟨j, hij, hj⟩ := hstep
    exact hP j _ _ hij hj ih

/-- What a rule does not write: the parameters, the host's registers and the handshake. -/
def EngineOnly (s t : State) : Prop :=
  t = { s with
    state := t.state, mode := t.mode, cumv := t.cumv, symv := t.symv, lutv := t.lutv, wptr := t.wptr, wend := t.wend
    wlim := t.wlim, rptr := t.rptr, rlim := t.rlim, result := t.result, total := t.total, outlen := t.outlen
    cnt := t.cnt, cum := t.cum, symtab := t.symtab, lut := t.lut, wmem := t.wmem }

theorem EngineOnly.trans {s u t : State} (h : EngineOnly s u) (h' : EngineOnly u t) : EngineOnly s t := by
  unfold EngineOnly at *
  rw [h', h]

theorem Effect.engineOnly {j : Instr} {s t : State} (h : Effect j s t) : EngineOnly s t := by
  cases h <;> rfl

theorem Chain.engineOnly {i : Instr} {s t : State} (h : Chain i s t) : EngineOnly s t :=
  h.keeps (P := EngineOnly s) (fun _ _ _ _ heffect hs => hs.trans heffect.engineOnly) rfl

theorem EngineOnly.params_eq {s t : State} (h : EngineOnly s t) : t.params = s.params := by rw [h]

/-! ### What a rule answers -/

/-- The pointers of the open coder are no region of WMEM (log 16). -/
def PointersOutside (s : State) : Prop :=
  (s.mode = .enc ∧ ¬ (s.wlim.toNat ≤ s.wptr.toNat ∧ s.wptr.toNat ≤ s.params.wmemSize)) ∨
    (s.mode = .dec ∧ ¬ (s.rptr.toNat ≤ s.rlim.toNat ∧ s.rlim.toNat ≤ s.params.wmemSize))

/-- The rule of `i` on `s` completes by a chain of its steps, raises a fault, or a chain of its steps leads to a coder
whose pointers are outside. -/
def Answers (i : Instr) (s : State) (r : CmdResult) : Prop :=
  match r with
  | .done t => Chain i s t
  | .raised _ _ => True
  | .stuck _ => ∃ u, Chain i s u ∧ PointersOutside u

theorem Answers.after {i : Instr} {s u : State} {r : CmdResult} (h : Chain i s u) (hr : Answers i u r) :
    Answers i s r := by
  cases r with
  | done t => exact h.trans hr
  | raised c info => trivial
  | stuck p =>
    obtain ⟨v, hv, hout⟩ := hr
    exact ⟨v, h.trans hv, hout⟩

theorem Answers.andThen {i : Instr} {s : State} {r : CmdResult} {k : State → CmdResult} (hr : Answers i s r)
    (hk : ∀ u, Chain i s u → Answers i u (k u)) : Answers i s (r.andThen k) := by
  cases r with
  | done u => exact .after hr (hk u hr)
  | raised c info => trivial
  | stuck p => exact hr

/-- A check of the rule: behind it the check's negation holds. -/
theorem Answers.guard {i : Instr} {s : State} {p : Prop} [Decidable p] {c : FaultCode} {info : Word} {r : CmdResult}
    (hr : ¬ p → Answers i s r) : Answers i s (if p then .raised c info else r) := by
  split
  · trivial
  · exact hr ‹_›

/-- The rule completes with one effect. -/
theorem Answers.effect {i j : Instr} {s t : State} (hij : StepOf i j) (h : Effect j s t) : Answers i s (.done t) :=
  Chain.single hij h

/-! ### The primitives -/

section

variable {i : Instr} {s : State}

theorem inRange_of_not {size a n : Nat} (h : ¬ (!inRange size a n) = true) : a + n ≤ size := by
  simpa [inRange] using h

theorem answers_countRule (hi : StepOf i .count) (src len : Nat) : Answers i s (countRule src len s) :=
  .guard fun _ => .effect hi (.recounted s _ (by decide))

theorem answers_normRule (hi : StepOf i .norm) : Answers i s (normRule s) := by
  obtain h | h := Nat.lt_or_ge 0xFFFFFFFF (countSum s.cnt 256)
  · rw [normRule_overflow h]
    trivial
  · rw [normRule_done h]
    exact .effect hi (.normed s h)

theorem answers_symtabRule (hi : StepOf i .symtab) : Answers i s (symtabRule s) := by
  refine .guard fun hv => ?_
  cases firstOutOfSlot s.cum with
  | some i => trivial
  | none => exact .effect hi (.described s (by simpa using hv))

theorem answers_lutgenRule (hi : StepOf i .lutgen) : Answers i s (lutgenRule s) :=
  .guard fun hv => .effect hi (.mapped s (by simpa using hv))

theorem answers_encinitRule (hi : StepOf i .encinit) (top lim : Word) : Answers i s (encinitRule top lim s) := by
  refine .guard fun hv => .guard fun hregion => ?_
  obtain ⟨hlim, hsize⟩ : lim.toNat ≤ top.toNat ∧ top.toNat ≤ s.params.wmemSize := by simpa [regionOk] using hregion
  exact .effect hi (.encOpened s top lim (by simpa using hv) hlim hsize)

theorem encputRule_done_entry {u : State} {sym : Byte} (h : encputRule sym s = .done u) :
    s.mode = .enc ∧ s.wptr.toNat ≤ s.params.wmemSize := by
  rw [encputRule] at h
  split_ifs at h with hm hthr hregion
  obtain ⟨-, hsize⟩ := regionOk_eq_true_iff.1 (Bool.not_eq_false _ ▸ hregion)
  exact ⟨not_not.1 hm, hsize⟩

theorem encputRule_stuck {sym : Byte} {p : Word} (h : encputRule sym s = .stuck p) : PointersOutside s := by
  rw [encputRule] at h
  split_ifs at h with hm hthr hregion
  · exact .inl ⟨not_not.1 hm, by rwa [← regionOk_eq_true_iff, Bool.not_eq_true]⟩
  · split at h <;> cases h

theorem answers_encputRule {sym : Byte} (hi : StepOf i (.encput sym)) : Answers i s (encputRule sym s) := by
  cases hput : encputRule sym s with
  | done u =>
    have hlimit := encputRule_done_limit hput
    obtain ⟨hmode, hsize⟩ := encputRule_done_entry hput
    obtain ⟨k, hthr, hturns, hk, rfl⟩ := encputRule_eq_done hput
    rw [toNat_wptr_putState _ hk] at hlimit
    exact .effect hi (.put s sym k hmode hthr hsize hturns (by omega))
  | raised c info => trivial
  | stuck p => exact ⟨s, .refl, encputRule_stuck hput⟩

theorem answers_encflushRule (hi : StepOf i .encflush) : Answers i s (encflushRule s) := by
  refine .guard fun hm => .guard fun hroom => ?_
  have hmode := not_not.1 hm
  by_cases hregion : s.wlim.toNat ≤ s.wptr.toNat ∧ s.wptr.toNat ≤ s.params.wmemSize
  · rw [if_neg (by simp [regionOk_eq_true_iff.2 hregion])]
    exact .effect hi (.encFlushed s hmode (by omega) hregion.2)
  · rw [if_pos (by rwa [← Bool.not_eq_true, regionOk_eq_true_iff])]
    exact ⟨s, .refl, .inl ⟨hmode, hregion⟩⟩

theorem answers_decinitRule (hi : StepOf i .decinit) (src len : Word) : Answers i s (decinitRule src len s) :=
  .guard fun hv => .guard fun hsize => .guard fun hlen =>
    .effect hi (.decOpened s src len (by simpa using hv) (inRange_of_not hsize) (by omega))

theorem answers_decgetRule (hi : StepOf i .decget) : Answers i s (decgetRule s) := by
  refine .guard fun hm => .guard fun _ => ?_
  have hmode := not_not.1 hm
  by_cases hregion : s.rptr.toNat ≤ s.rlim.toNat ∧ s.rlim.toNat ≤ s.params.wmemSize
  · rw [if_neg (by simp [regionOk_eq_true_iff.2 hregion])]
    cases hr : decRenorm s.wmem (s.rlim.toNat - s.rptr.toNat) (decAdvance s.cum (decSymbol s).toNat s.state.toNat)
        s.rptr.toNat with
    | error rp => trivial
    | ok e =>
      have hbound := decRenorm_eq_ok hr
      have := s.rlim.isLt
      refine .effect hi (.got s _ _ hmode ?_ hregion.2)
      rw [BitVec.toNat_ofNat, Nat.mod_eq_of_lt (by omega)]
      omega
  · rw [if_pos (by rwa [← Bool.not_eq_true, regionOk_eq_true_iff])]
    exact ⟨s, .refl, .inr ⟨hmode, hregion⟩⟩

theorem answers_stcntRule (hi : StepOf i .stcnt) (dst k : Nat) : Answers i s (stcntRule dst k s) :=
  .guard fun _ => .guard fun hsize => .effect hi (.stored s dst (countBytes s.cnt k) _ (by decide) (by
    rw [countBytes_length]
    exact inRange_of_not hsize))

theorem answers_ldcntRule (hi : StepOf i .ldcnt) (src k : Nat) : Answers i s (ldcntRule src k s) :=
  .guard fun _ => .guard fun _ => .effect hi (.recounted s _ (by decide))

theorem answers_expandRule (hi : StepOf i .expand) (src n dst : Nat) : Answers i s (expandRule src n dst s) :=
  .guard fun _ => .guard fun hdst => .guard fun _ =>
    .effect hi (.stored s dst (expandBytes s.params.bitOrder (loadBytes s.wmem src n)) _ (by decide) (by
      rw [expandBytes_length, loadBytes_length]
      exact inRange_of_not hdst))

theorem answers_packRule (hi : StepOf i .pack) (src nb dst : Nat) : Answers i s (packRule src nb dst s) := by
  refine .guard fun _ => .guard fun hdst => .guard fun _ => ?_
  cases firstBadBit (loadBytes s.wmem src nb) with
  | some i => trivial
  | none =>
    refine .effect hi (.stored s dst _ _ (by decide) ?_)
    rw [packBits_length, loadBytes_length]
    exact inRange_of_not hdst

end

/-! ### The composites -/

theorem answers_encputsDown (src n : Nat) (s : State) : Answers .encode s (encputsDown src n s) := by
  induction n generalizing s with
  | zero => exact Relation.ReflTransGen.refl
  | succ k ih => exact (answers_encputRule (.encput _)).andThen fun u _ => ih u

theorem answers_encodeRule (src len hi lim : Word) (s : State) : Answers .encode s (encodeRule src len hi lim s) :=
  .guard fun _ => .guard fun _ => .guard fun _ =>
    (((((answers_countRule (.encode (by decide)) _ _).andThen fun _ _ => answers_normRule (.encode (by decide))).andThen
      fun _ _ => answers_symtabRule (.encode (by decide))).andThen
      fun _ _ => answers_encinitRule (.encode (by decide)) hi lim).andThen
      fun u _ => answers_encputsDown _ _ u).andThen fun _ _ => answers_encflushRule (.encode (by decide))

/-- A store of DECODE at an address of its output buffer. -/
theorem chain_storeResult {s : State} {dst : Nat} (h : dst < s.params.wmemSize) :
    Chain .decode s (storeResult dst s) :=
  .single (.self _) (.stored s dst [s.result] s.outlen (by decide) h)

theorem answers_decgetsUp {n dst : Nat} {s : State} (h : dst + n ≤ s.params.wmemSize) :
    Answers .decode s (decgetsUp n dst s) := by
  induction n generalizing dst s with
  | zero => exact Relation.ReflTransGen.refl
  | succ k ih =>
    refine (answers_decgetRule (.decode (by decide))).andThen fun u hu => ?_
    have hparams := hu.engineOnly.params_eq
    have hrest := ih (dst := dst + 1) (s := storeResult dst u) (by rw [storeResult_params, hparams]; omega)
    have hstore := chain_storeResult (s := u) (dst := dst) (by rw [hparams]; omega)
    exact .after hstore hrest

theorem answers_decodeSymbols {src len : Word} {dst cap : Nat} {s : State} (h : dst + cap ≤ s.params.wmemSize) :
    Answers .decode s (decodeSymbols src len dst cap s) := by
  refine .guard fun hcap => ?_
  refine ((answers_decinitRule (.decode (by decide)) src len).andThen fun u hu => ?_).andThen fun u hu => ?_
  · exact answers_decgetsUp (by rw [hu.engineOnly.params_eq]; omega)
  · exact .effect (.self _) (.stored u 0 [] s.total (by decide) (Nat.zero_le _))

theorem answers_decodeRule (src len dst cap : Word) (s : State) :
    Answers .decode s (decodeRule src len dst cap s) :=
  .guard fun _ => .guard fun hdst => .guard fun _ =>
    (((answers_normRule (.decode (by decide))).andThen fun _ _ => answers_symtabRule (.decode (by decide))).andThen
      fun _ _ => answers_lutgenRule (.decode (by decide))).andThen fun _ hu =>
      answers_decodeSymbols (by rw [hu.engineOnly.params_eq]; exact inRange_of_not hdst)

theorem answers_ruleOf (i : Instr) (o : Operands) (s : State) : Answers i s (ruleOf i o s) :=
  match i with
  | .nop => .effect (.self _) (.nop s)
  | .count => answers_countRule (.self _) _ _
  | .norm => answers_normRule (.self _)
  | .symtab => answers_symtabRule (.self _)
  | .lutgen => answers_lutgenRule (.self _)
  | .encinit => answers_encinitRule (.self _) _ _
  | .encput _ => answers_encputRule (.self _)
  | .encflush => answers_encflushRule (.self _)
  | .decinit => answers_decinitRule (.self _) _ _
  | .decget => answers_decgetRule (.self _)
  | .encode => answers_encodeRule _ _ _ _ s
  | .decode => answers_decodeRule _ _ _ _ s
  | .expand => answers_expandRule (.self _) _ _ _
  | .pack => answers_packRule (.self _) _ _ _
  | .stcnt => answers_stcntRule (.self _) _ _
  | .ldcnt => answers_ldcntRule (.self _) _ _

theorem chain_of_ruleOf_done {i : Instr} {o : Operands} {s t : State} (h : ruleOf i o s = .done t) : Chain i s t := by
  have hanswers := answers_ruleOf i o s
  rwa [h] at hanswers

theorem pointersOutside_of_ruleOf_stuck {i : Instr} {o : Operands} {s : State} {p : Word}
    (h : ruleOf i o s = .stuck p) : ∃ u, Chain i s u ∧ PointersOutside u := by
  have hanswers := answers_ruleOf i o s
  rwa [h] at hanswers

end Sys2Proof.Claims
end

section
/-! PROOF. What all commands leave alone (10_state.md R21, R22, R32, R41 to R44; 45_control.md R211 to R214): from the
effects of the rules where the command completes, and from the row of 60_exceptions.md R269 where it faults. -/

namespace Sys2Proof.Claims

open Sys2Proof.Machine

/-! ### The handshake and the host's state -/

/-- Settles O39: no effect writes the host's state, and no fault does. -/
theorem commandsNeverWriteHostState : Obligations.CommandsNeverWriteHostState := by
  intro i s t ht
  obtain ⟨l, -, ⟨u, hu, rfl⟩ | ⟨c, info, -, rfl⟩⟩ := exec_cases ht
  · rw [(chain_of_ruleOf_done hu).engineOnly]
    exact ⟨rfl, rfl, rfl, rfl, rfl, rfl, rfl, rfl⟩
  · obtain ⟨hparams, hargs, hcmd, -, -, hcmdovr, haccerr, hie, -, -, -, -, hinbox, hrdata⟩ :=
      takeFault_frame i c info l.ops s
    exact ⟨hargs, hcmd, hie, hcmdovr, haccerr, hparams, hinbox, hrdata⟩

/-- Settles O38: completion sets DONE and a fault sets FAULT, so either raises the interrupt where IE allows it. -/
theorem everyCommandEndsTheHandshake : Obligations.EveryCommandEndsTheHandshake := by
  refine ⟨fun s => rfl, fun i s t hs ht => ?_⟩
  obtain ⟨l, -, ⟨u, hu, rfl⟩ | ⟨c, info, -, rfl⟩⟩ := exec_cases ht
  · rw [(chain_of_ruleOf_done hu).engineOnly]
    exact ⟨rfl, Bool.and_true _, fun _ => ⟨rfl, rfl, rfl⟩⟩
  · obtain ⟨-, -, -, -, hfault, -, -, hie, -, -, -, hlatch, -⟩ := takeFault_frame i c info l.ops s
    refine ⟨hlatch, ?_, fun h => absurd (hfault.symm.trans h) nofun⟩
    rw [irq, hfault, hie, Option.isSome_some, Bool.or_true, Bool.and_true]

/-! ### Who writes what, effect by effect -/

theorem Effect.state_eq {j : Instr} {s t : State} (h : Effect j s t) (hput : ∀ sym, j ≠ .encput sym)
    (hj : j ∉ [.encinit, .decinit, .decget]) : t.state = s.state := by
  cases h with
  | put _ sym => exact absurd rfl (hput sym)
  | encOpened | decOpened | got => exact absurd hj (by decide)
  | _ => rfl

theorem Effect.cnt_eq {j : Instr} {s t : State} (h : Effect j s t) (hj : j ∉ [.count, .ldcnt]) : t.cnt = s.cnt := by
  cases h with
  | recounted _ _ hcount => exact absurd hcount hj
  | _ => rfl

theorem Effect.cum_eq {j : Instr} {s t : State} (h : Effect j s t) (hj : j ≠ .norm) : t.cum = s.cum := by
  cases h with
  | normed => exact absurd rfl hj
  | _ => rfl

theorem Effect.symtab_eq {j : Instr} {s t : State} (h : Effect j s t) (hj : j ≠ .symtab) : t.symtab = s.symtab := by
  cases h with
  | described => exact absurd rfl hj
  | _ => rfl

theorem Effect.lut_eq {j : Instr} {s t : State} (h : Effect j s t) (hj : j ≠ .lutgen) : t.lut = s.lut := by
  cases h with
  | mapped => exact absurd rfl hj
  | _ => rfl

theorem Effect.mode_eq_enc {j : Instr} {s t : State} (h : Effect j s t) (hj : j ≠ .encinit) (ht : t.mode = .enc) :
    s.mode = .enc := by
  cases h with
  | encOpened => exact absurd rfl hj
  | nop | described | mapped | put | got | stored => exact ht
  | recounted | normed | encFlushed | decOpened => cases ht

theorem Effect.mode_eq_dec {j : Instr} {s t : State} (h : Effect j s t) (hj : j ≠ .decinit) (ht : t.mode = .dec) :
    s.mode = .dec := by
  cases h with
  | decOpened => exact absurd rfl hj
  | nop | described | mapped | put | got | stored => exact ht
  | recounted | normed | encFlushed | encOpened => cases ht

/-! ### Who writes what, fault by fault -/

/-- What a fault leaves of the tables and the coder is R269's row, or nothing but the record (R268). -/
theorem takeFault_cases (i : Instr) (c : FaultCode) (info : Word) (ops : Operands) (s : State) :
    takeFault i c info ops s = recordFault c info s ∨
      takeFault i c info ops s =
        recordFault c info { leaveUnspecified i c ops s with mode := .idle, draws := s.draws + 1 } := by
  cases hp : faultPrecise c with
  | true => exact .inl (takeFault_precise i c info ops s hp)
  | false => exact .inr (takeFault_abortive i c info ops s hp)

theorem leaveUnspecified_writers (i : Instr) (c : FaultCode) (ops : Operands) (s : State) :
    let t := leaveUnspecified i c ops s
    (i ∉ [.encode, .decode] → t.state = s.state) ∧ (i ≠ .encode → t.cnt = s.cnt) ∧
      (i ∉ [.norm, .encode, .decode] → t.cum = s.cum) ∧ (i ∉ [.symtab, .encode, .decode] → t.symtab = s.symtab) ∧
      (i ≠ .decode → t.lut = s.lut) := by
  cases i <;> simp only [leaveUnspecified] <;> (try split) <;> simp

/-! ### Who writes what, command by command -/

theorem StepOf.eq_of_primitive {i j : Instr} (h : StepOf i j) (henc : i ≠ .encode) (hdec : i ≠ .decode) : j = i := by
  cases h with
  | self => rfl
  | encode | encput => exact absurd rfl henc
  | decode => exact absurd rfl hdec

theorem StepOf.notMem_counts {i j : Instr} (h : StepOf i j) (hi : i ∉ [.count, .ldcnt, .encode]) :
    j ∉ [.count, .ldcnt] := by
  cases h with
  | self => exact fun hmem => hi ((by simp : [Instr.count, .ldcnt] ⊆ [.count, .ldcnt, .encode]) hmem)
  | encode | encput => exact absurd hi (by decide)
  | decode hj => revert j; decide

theorem StepOf.ne_lutgen {i j : Instr} (h : StepOf i j) (hi : i ∉ [.lutgen, .decode]) : j ≠ .lutgen := by
  cases h with
  | self => rintro rfl; exact hi (by decide)
  | encode hj => revert j; decide
  | encput => nofun
  | decode => exact absurd hi (by decide)

theorem StepOf.ne_encinit {i j : Instr} (h : StepOf i j) (hi : i ≠ .encinit) (henc : i ≠ .encode) : j ≠ .encinit := by
  cases h with
  | self => exact hi
  | encode | encput => exact absurd rfl henc
  | decode hj => revert j; decide

theorem StepOf.ne_decinit {i j : Instr} (h : StepOf i j) (hi : i ≠ .decinit) (hdec : i ≠ .decode) : j ≠ .decinit := by
  cases h with
  | self => exact hi
  | encode hj => revert j; decide
  | encput => nofun
  | decode => exact absurd rfl hdec

theorem Chain.field_eq {α : Type} {f : State → α} {i : Instr} {s t : State} (h : Chain i s t)
    (hf : ∀ j u v, StepOf i j → Effect j u v → f v = f u) : f t = f s :=
  h.keeps (P := fun u => f u = f s) (fun j u v hij heffect hu => (hf j u v hij heffect).trans hu) rfl

/-- What a command may write of the tables and STATE, and which command enters a coder mode. -/
def FewWriters (i : Instr) (s t : State) : Prop :=
  ((∀ sym, i ≠ .encput sym) → i ∉ [.encinit, .decinit, .decget, .encode, .decode] → t.state = s.state) ∧
    (i ∉ [.count, .ldcnt, .encode] → t.cnt = s.cnt) ∧
    (i ∉ [.norm, .encode, .decode] → t.cum = s.cum) ∧
    (i ∉ [.symtab, .encode, .decode] → t.symtab = s.symtab) ∧
    (i ∉ [.lutgen, .decode] → t.lut = s.lut) ∧
    (t.mode = .enc → s.mode = .enc ∨ i = .encinit) ∧
    (t.mode = .dec → s.mode = .dec ∨ i = .decinit ∨ i = .decode)

theorem mode_eq_enc_of_chain {i : Instr} {s t : State} (h : Chain i s t) (henc : i ≠ .encode) (ht : t.mode = .enc) :
    s.mode = .enc ∨ i = .encinit := by
  by_cases hi : i = .encinit
  · exact .inr hi
  · refine .inl (by_contra fun hs => ?_)
    exact h.keeps (P := fun u => u.mode ≠ .enc)
      (fun j u v hij heffect hu hv => hu (heffect.mode_eq_enc (hij.ne_encinit hi henc) hv)) hs ht

theorem mode_eq_dec_of_chain {i : Instr} {s t : State} (h : Chain i s t) (ht : t.mode = .dec) :
    s.mode = .dec ∨ i = .decinit ∨ i = .decode := by
  by_cases hi : i = .decinit ∨ i = .decode
  · exact .inr hi
  · obtain ⟨hinit, hdec⟩ := not_or.1 hi
    refine .inl (by_contra fun hs => ?_)
    exact h.keeps (P := fun u => u.mode ≠ .dec)
      (fun j u v hij heffect hu hv => hu (heffect.mode_eq_dec (hij.ne_decinit hinit hdec) hv)) hs ht

/-- ENCODE ends with ENCFLUSH, so its own ENCINIT is not seen. -/
theorem mode_of_encode_done {o : Operands} {s t : State} (h : ruleOf .encode o s = .done t) : t.mode = .idle := by
  obtain ⟨-, w, -, -, rfl⟩ := encodeRule_eq_done h
  rfl

theorem fewWriters_of_ruleOf_done {i : Instr} {o : Operands} {s t : State} (h : ruleOf i o s = .done t) :
    FewWriters i s t := by
  have hchain := chain_of_ruleOf_done h
  refine ⟨fun hput hi => hchain.field_eq fun j u v hij heffect => ?_,
    fun hi => hchain.field_eq fun j u v hij heffect => heffect.cnt_eq (hij.notMem_counts hi),
    fun hi => hchain.field_eq fun j u v hij heffect => ?_, fun hi => hchain.field_eq fun j u v hij heffect => ?_,
    fun hi => hchain.field_eq fun j u v hij heffect => heffect.lut_eq (hij.ne_lutgen hi), fun ht => ?_,
    mode_eq_dec_of_chain hchain⟩
  · simp only [List.mem_cons, not_or] at hi
    obtain rfl := hij.eq_of_primitive hi.2.2.2.1 hi.2.2.2.2.1
    exact heffect.state_eq hput (by simp [hi])
  · simp only [List.mem_cons, not_or] at hi
    obtain ⟨hnorm, henc, hdec, -⟩ := hi
    exact heffect.cum_eq (hij.eq_of_primitive henc hdec ▸ hnorm)
  · simp only [List.mem_cons, not_or] at hi
    obtain ⟨hsymtab, henc, hdec, -⟩ := hi
    exact heffect.symtab_eq (hij.eq_of_primitive henc hdec ▸ hsymtab)
  · by_cases henc : i = .encode
    · subst henc
      rw [mode_of_encode_done h] at ht
      cases ht
    · exact mode_eq_enc_of_chain hchain henc ht

theorem fewWriters_takeFault (i : Instr) (c : FaultCode) (info : Word) (o : Operands) (s : State) :
    FewWriters i s (takeFault i c info o s) := by
  obtain ⟨hstate, hcnt, hcum, hsymtab, hlut⟩ := leaveUnspecified_writers i c o s
  obtain h | h := takeFault_cases i c info o s <;> rw [h]
  · exact ⟨fun _ _ => rfl, fun _ => rfl, fun _ => rfl, fun _ => rfl, fun _ => rfl, .inl, .inl⟩
  · refine ⟨fun _ hi => hstate fun hmem => ?_, fun hi => hcnt ?_, hcum, hsymtab, fun hi => hlut ?_, nofun, nofun⟩
    · exact hi ((by simp : [Instr.encode, .decode] ⊆ [.encinit, .decinit, .decget, .encode, .decode]) hmem)
    · rintro rfl
      exact hi (by decide)
    · rintro rfl
      exact hi (by decide)

/-- Settles O40: the writers are the effects that show the item, and the rows of R269 that name it. -/
theorem tablesAndStateHaveFewWriters : Obligations.TablesAndStateHaveFewWriters := by
  intro i s t ht
  obtain ⟨l, -, ⟨u, hu, rfl⟩ | ⟨c, info, -, rfl⟩⟩ := exec_cases ht
  · have hwriters : FewWriters i s u := fewWriters_of_ruleOf_done hu
    exact hwriters
  · exact fewWriters_takeFault i c info l.ops s

end Sys2Proof.Claims
end

section
/-! PROOF. Packages for invariants: what every effect, completion and fault keeps, every command keeps, and what every
command, host access and reset pulse keeps, every step keeps (45_control.md R221). -/

namespace Sys2Proof.Claims

open Sys2Proof.Machine

theorem exec_keeps {P : State → Prop} (heffect : ∀ {j s t}, Effect j s t → P s → P t)
    (hcomplete : ∀ {s}, P s → P (complete s))
    (hfault : ∀ {i o s c info}, ruleOf i o s = .raised c info → P s → P (takeFault i c info o s)) {i : Instr}
    {s t : State} (ht : exec i s = .next t) (hs : P s) : P t := by
  obtain ⟨l, -, ⟨u, hu, rfl⟩ | ⟨c, info, hraised, rfl⟩⟩ := exec_cases ht
  · exact hcomplete ((chain_of_ruleOf_done hu).keeps (fun _ _ _ _ => heffect) hs)
  · exact hfault hraised hs

theorem engineTurn_keeps {P : State → Prop} (hexec : ∀ {i s t}, exec i s = .next t → P s → P t)
    (hbad : ∀ {s l}, s.latch = some l → P s → P (badCommand l.word s)) {s t : State} (ht : engineTurn s = .next t)
    (hs : P s) : P t := by
  obtain ⟨-, h⟩ | ⟨l, e, hl, -, h⟩ | ⟨l, i, -, -, h⟩ := engineTurn_cases s
  · cases h.symm.trans ht
    exact hs
  · cases h.symm.trans ht
    exact hbad hl hs
  · exact hexec (h.symm.trans ht) hs

/-- The state with the next event taken from the inbox is the state with another inbox. -/
theorem step_keeps {P : State → Prop} (hinbox : ∀ {s} evs, P s → P { s with inbox := evs })
    (hhost : ∀ {s t}, HostEffect s t → P s → P t) (hengine : ∀ {s t}, engineTurn s = .next t → P s → P t)
    (hreset : ∀ {s}, P s → P (resetPulse s)) {s t : State} (ht : step s = .next t) (hs : P s) : P t := by
  cases h : s.inbox with
  | nil => exact hengine ((step_engine s h).symm.trans ht) hs
  | cons e rest =>
    have hevent := (step_event s e rest h).symm.trans ht
    cases e with
    | access a => exact hhost (hostEffect_of_hostAccess hevent) (hinbox rest hs)
    | engine => exact hengine hevent (hinbox rest hs)
    | reset =>
      cases hevent
      exact hreset (hinbox rest hs)

end Sys2Proof.Claims
end

section
/-! PROOF. WMEM stays canonical and inside [0, WMEM_SIZE) (10_state.md R45, 20_memory.md R60). -/

namespace Sys2Proof.Claims

open Sys2Proof.Machine

/-! ### The stores -/

theorem emitDown_wf {m : Memory} {wptr x k : Nat} (h : Memory.wf m = true) :
    Memory.wf (emitDown m wptr x k) = true := by
  induction k generalizing m wptr x with
  | zero => exact h
  | succ k ih => exact ih (writeByte_wf m _ _ h)

theorem emitDown_within {size wptr x k : Nat} {m : Memory} (h : memoryWithin size m = true) (hk : k ≤ wptr)
    (hsize : wptr ≤ size) : memoryWithin size (emitDown m wptr x k) = true := by
  induction k generalizing m wptr x with
  | zero => exact h
  | succ k ih => exact ih (writeByte_within size m _ _ h (by omega)) (by omega) (by omega)

theorem Effect.memoryOk {j : Instr} {s t : State} (h : Effect j s t) (hs : s.memoryOk) : t.memoryOk := by
  obtain ⟨hwf, hwithin⟩ := hs
  cases h with
  | put _ _ k _ _ hsize _ hroom => exact ⟨emitDown_wf hwf, emitDown_within hwithin (by omega) hsize⟩
  | encFlushed _ _ hroom hsize =>
    have hend : s.wptr.toNat - 4 + 4 ≤ s.params.wmemSize := by omega
    exact ⟨memWrite32_wf _ _ _ hwf, memWrite32_within _ _ _ _ hwithin hend⟩
  | stored _ a bs _ _ hsize => exact ⟨storeBytes_wf _ _ _ hwf, storeBytes_within _ _ _ _ hwithin hsize⟩
  | _ => exact ⟨hwf, hwithin⟩

/-! ### The draws of a fault -/

theorem region_of_encputRule_outOverflow {s : State} {sym : Byte} {info : Word}
    (h : encputRule sym s = .raised .outOverflow info) :
    s.wlim.toNat ≤ s.wptr.toNat ∧ s.wptr.toNat ≤ s.params.wmemSize := by
  rw [encputRule] at h
  split_ifs at h with hm hthr hregion
  · cases h
  · cases h
  · exact regionOk_eq_true_iff.1 (Bool.not_eq_false _ ▸ hregion)

/-- A rule does not raise an abortive fault where it raises a precise one. -/
theorem not_abortive_of_precise {r : CmdResult} {c c' : FaultCode} {info info' : Word} (h : r = .raised c info)
    (hc : faultPrecise c = false) (h' : r = .raised c' info') : faultPrecise c' = false := by
  cases h.symm.trans h'
  exact hc

/-- The operand checks of ENCODE are precise faults, so behind an abortive one they have passed. -/
theorem operandsOk_of_encodeRule_abortive {s : State} {o : Operands} {c : FaultCode} {info : Word}
    (h : encodeRule o.a0 o.a1 o.a2 o.a3 s = .raised c info) (hc : faultPrecise c = false) : encodeOperandsOk s o := by
  by_cases hbad : s.params.wmemSize < o.a0.toNat + o.a1.toNat ∨ o.a2.toNat < o.a3.toNat ∨
      s.params.wmemSize < o.a2.toNat
  · exact absurd (not_abortive_of_precise h hc (encodeRule_badAddr hbad)) (by decide)
  · obtain ⟨hsrc, hlim, hsize⟩ : o.a0.toNat + o.a1.toNat ≤ s.params.wmemSize ∧ o.a3.toNat ≤ o.a2.toNat ∧
        o.a2.toNat ≤ s.params.wmemSize := by omega
    refine ⟨hsrc, hlim, hsize, fun hmeets => ?_⟩
    exact absurd (not_abortive_of_precise h hc (encodeRule_overlap hsrc hlim hsize hmeets)) (by decide)

/-- The operand checks of DECODE are precise faults, so behind an abortive one they have passed. -/
theorem operandsOk_of_decodeRule_abortive {s : State} {o : Operands} {c : FaultCode} {info : Word}
    (h : decodeRule o.a0 o.a1 o.a2 o.a3 s = .raised c info) (hc : faultPrecise c = false) : decodeOperandsOk s o := by
  by_cases hbad : s.params.wmemSize < o.a0.toNat + o.a1.toNat ∨ s.params.wmemSize < o.a2.toNat + o.a3.toNat
  · exact absurd (not_abortive_of_precise h hc (decodeRule_badAddr hbad)) (by decide)
  · obtain ⟨hsrc, hdst⟩ : o.a0.toNat + o.a1.toNat ≤ s.params.wmemSize ∧
        o.a2.toNat + o.a3.toNat ≤ s.params.wmemSize := by omega
    refine ⟨hsrc, hdst, fun hmeets => ?_⟩
    exact absurd (not_abortive_of_precise h hc (decodeRule_overlap hsrc hdst hmeets)) (by decide)

theorem memoryOk_drawBytes {s : State} {lo hi : Nat} (hs : s.memoryOk) (hlo : lo ≤ s.params.wmemSize)
    (hhi : hi ≤ s.params.wmemSize) (n : Nat) :
    Memory.wf (drawBytes n lo hi s.wmem) = true ∧
      memoryWithin s.params.wmemSize (drawBytes n lo hi s.wmem) = true :=
  ⟨drawBytes_wf n lo hi _ hs.1, drawBytes_within _ n lo hi _ hs.2 hlo hhi⟩

theorem memoryOk_leaveUnspecified {i : Instr} {o : Operands} {s : State} {c : FaultCode} {info : Word}
    (hraised : ruleOf i o s = .raised c info) (hc : faultPrecise c = false) (hs : s.memoryOk) :
    (leaveUnspecified i c o s).memoryOk := by
  cases i with
  | encput sym =>
    by_cases hover : c = .outOverflow
    · subst hover
      obtain ⟨hlim, hsize⟩ := region_of_encputRule_outOverflow hraised
      exact memoryOk_drawBytes hs (hlim.trans hsize) hsize _
    · rwa [leaveUnspecified, if_neg hover]
  | encode =>
    obtain ⟨-, hlim, hsize, -⟩ := operandsOk_of_encodeRule_abortive hraised hc
    exact memoryOk_drawBytes hs (hlim.trans hsize) hsize _
  | decode =>
    obtain ⟨-, hdst, -⟩ := operandsOk_of_decodeRule_abortive hraised hc
    exact memoryOk_drawBytes hs (by omega) hdst _
  | norm | decget =>
    rw [leaveUnspecified]
    split <;> exact hs
  | _ => exact hs

theorem memoryOk_takeFault {i : Instr} {o : Operands} {s : State} {c : FaultCode} {info : Word}
    (hraised : ruleOf i o s = .raised c info) (hs : s.memoryOk) : (takeFault i c info o s).memoryOk := by
  cases hc : faultPrecise c with
  | true => rwa [takeFault_precise i c info o s hc]
  | false =>
    rw [takeFault_abortive i c info o s hc]
    exact memoryOk_leaveUnspecified hraised hc hs

/-! ### The step -/

theorem HostEffect.memoryOk {s t : State} (h : HostEffect s t) (hs : s.memoryOk) : t.memoryOk := by
  cases h with
  | stored a bs _ hsize => exact ⟨storeBytes_wf _ _ _ hs.1, storeBytes_within _ _ _ _ hs.2 hsize⟩
  | _ => exact hs

theorem memoryOk_resetPulse (s : State) : (resetPulse s).memoryOk := ⟨rfl, rfl⟩

theorem exec_keeps_memoryOk {i : Instr} {s t : State} (ht : exec i s = .next t) (hs : s.memoryOk) : t.memoryOk :=
  exec_keeps (fun h => h.memoryOk) id memoryOk_takeFault ht hs

/-- Settles O55: every store is inside WMEM, by the checks the effects carry, and so is every draw of a fault. -/
theorem stepKeepsMemoryCanonical : Obligations.StepKeepsMemoryCanonical := fun _ _ hs ht =>
  step_keeps (fun _ => id) HostEffect.memoryOk (engineTurn_keeps exec_keeps_memoryOk fun _ => id)
    (fun _ => memoryOk_resetPulse _) ht hs

end Sys2Proof.Claims
end

section
/-! PROOF. The validity bits keep their meaning (10_state.md R26, R33): whoever writes CNT or CUM clears the bits of what
was derived from it. -/

namespace Sys2Proof.Claims

open Sys2Proof.Machine

/-- Tables that claim nothing. -/
theorem tablesCoherent_of_invalid {s : State} (hcumv : s.cumv = false) (hsymv : s.symv = false)
    (hlutv : s.lutv = false) : s.tablesCoherent :=
  ⟨fun h => absurd (hcumv.symm.trans h) (by decide), fun h => absurd (hsymv.symm.trans h) (by decide),
    fun h => absurd (hlutv.symm.trans h) (by decide)⟩

theorem Effect.tablesCoherent {j : Instr} {s t : State} (h : Effect j s t) (hs : s.tablesCoherent) :
    t.tablesCoherent := by
  obtain ⟨hcum, hsymtab, hlut⟩ := hs
  cases h with
  | recounted => exact tablesCoherent_of_invalid rfl rfl rfl
  | normed _ hfits => exact ⟨fun _ => cumCoherent_rebuilt hfits, nofun, nofun⟩
  | described => exact ⟨hcum, fun _ => rfl, hlut⟩
  | mapped => exact ⟨hcum, hsymtab, fun _ => rfl⟩
  | _ => exact ⟨hcum, hsymtab, hlut⟩

theorem tablesCoherent_leaveUnspecified (i : Instr) (c : FaultCode) (o : Operands) {s : State}
    (hs : s.tablesCoherent) : (leaveUnspecified i c o s).tablesCoherent := by
  cases i with
  | norm =>
    rw [leaveUnspecified]
    split <;> exact tablesCoherent_of_invalid rfl rfl rfl
  | symtab => exact ⟨hs.1, nofun, hs.2.2⟩
  | encode | decode => exact tablesCoherent_of_invalid rfl rfl rfl
  | encput | decget =>
    rw [leaveUnspecified]
    split <;> exact hs
  | _ => exact hs

theorem tablesCoherent_takeFault {i : Instr} {o : Operands} {s : State} {c : FaultCode} {info : Word}
    (hs : s.tablesCoherent) : (takeFault i c info o s).tablesCoherent := by
  obtain h | h := takeFault_cases i c info o s <;> rw [h]
  · exact hs
  · exact tablesCoherent_leaveUnspecified i c o hs

theorem HostEffect.tablesCoherent {s t : State} (h : HostEffect s t) (hs : s.tablesCoherent) : t.tablesCoherent := by
  cases h with
  | recounted => exact tablesCoherent_of_invalid rfl rfl rfl
  | _ => exact hs

theorem tablesCoherent_resetPulse (s : State) : (resetPulse s).tablesCoherent :=
  tablesCoherent_of_invalid rfl rfl rfl

theorem exec_keeps_tablesCoherent {i : Instr} {s t : State} (ht : exec i s = .next t) (hs : s.tablesCoherent) :
    t.tablesCoherent :=
  exec_keeps (fun h => h.tablesCoherent) id (fun _ => tablesCoherent_takeFault) ht hs

/-- Settles O56: NORM, SYMTAB and LUTGEN set a bit with the table it speaks of, and every writer of what a table was
derived from clears the table's bit. -/
theorem stepKeepsTablesCoherent : Obligations.StepKeepsTablesCoherent := fun _ _ hs ht =>
  step_keeps (fun _ => id) HostEffect.tablesCoherent (engineTurn_keeps exec_keeps_tablesCoherent fun _ => id)
    (fun _ => tablesCoherent_resetPulse _) ht hs

end Sys2Proof.Claims
end

section
/-! PROOF. The invariant of a run (10_state.md R47, R48 and Safety's `State.Inv`): every effect keeps what of it the engine
sees, so no chain of steps reaches a coder with its pointers outside, and the engine never stops. -/

namespace Sys2Proof.Claims

open Sys2Proof.Machine

/-- The invariant but for the handshake, which no rule sees. -/
structure EngineInv (s : State) : Prop where
  params : s.params.legal = true
  memory : s.memoryOk
  tables : s.tablesCoherent
  modes : s.modeGuards
  encoder : s.encoderBounds
  decoder : s.decoderBounds

theorem inv_iff {s : State} : s.Inv ↔ EngineInv s ∧ s.handshakeOk :=
  ⟨fun h => ⟨⟨h.params, h.memory, h.tables, h.modes, h.encoder, h.decoder⟩, h.handshake⟩, fun ⟨h, hshake⟩ =>
    ⟨h.params, h.memory, h.tables, h.modes, h.encoder, h.decoder, hshake⟩⟩

/-- With MODE = IDLE there is no coder to bound. -/
theorem EngineInv.of_idle {s : State} (hparams : s.params.legal = true) (hmemory : s.memoryOk)
    (htables : s.tablesCoherent) (hlutv : s.lutv = true → s.cumv = true) (hsymv : s.symv = true → s.cumv = true)
    (hmode : s.mode = .idle) : EngineInv s := by
  have henc : s.mode ≠ .enc := by rw [hmode]; decide
  have hdec : s.mode ≠ .dec := by rw [hmode]; decide
  exact ⟨hparams, hmemory, htables, ⟨fun h => absurd h henc, fun h => absurd h hdec, hlutv, hsymv⟩,
    fun h => absurd h henc, fun h => absurd h hdec⟩

/-! ### The effects -/

theorem Effect.modeGuards {j : Instr} {s t : State} (h : Effect j s t) (hs : s.modeGuards) : t.modeGuards := by
  obtain ⟨henc, hdec, hlut, hsym⟩ := hs
  cases h with
  | recounted => exact ⟨nofun, nofun, nofun, nofun⟩
  | normed => exact ⟨nofun, nofun, nofun, nofun⟩
  | described _ hcumv => exact ⟨fun _ => rfl, hdec, hlut, fun _ => hcumv⟩
  | mapped _ hcumv => exact ⟨henc, fun _ => rfl, fun _ => hcumv, hsym⟩
  | encOpened _ _ _ hsymv => exact ⟨fun _ => hsymv, nofun, hlut, hsym⟩
  | encFlushed => exact ⟨nofun, nofun, hlut, hsym⟩
  | decOpened _ _ _ hlutv => exact ⟨nofun, fun _ => hlutv, hlut, hsym⟩
  | _ => exact ⟨henc, hdec, hlut, hsym⟩

theorem EngineInv.encoderReady {s : State} (h : EngineInv s) (hmode : s.mode = .enc) : EncoderReady s where
  mode := hmode
  coherent := h.tables.1 (h.modes.2.2.2 (h.modes.1 hmode))
  symtab := h.tables.2.1 (h.modes.1 hmode)
  low := (h.encoder hmode).1
  high := (h.encoder hmode).2.1
  limit := (h.encoder hmode).2.2.1
  size := by
    obtain ⟨-, -, -, hwend, hsize⟩ := h.encoder hmode
    exact hwend.trans hsize

/-- A symbol that ENCPUT accepts has a width. -/
theorem EncoderReady.freq_pos {s : State} (h : EncoderReady s) {sym : Byte} (hthr : (entry s.symtab sym.toNat).thr ≠ 0) :
    1 ≤ freq s.cum sym.toNat :=
  Nat.pos_of_ne_zero fun h0 => hthr (by
    rw [h.entry_symtab, h0]
    exact (thr_descriptor_eq_zero_iff _ (Nat.zero_le _)).2 rfl)

theorem Effect.encoderBounds {j : Instr} {s t : State} (h : Effect j s t) (hs : EngineInv s) : t.encoderBounds := by
  cases h with
  | encOpened _ _ _ _ hlim hsize => exact fun _ =>
    ⟨(by decide : 8388608 ≤ (0x00800000 : Word).toNat), (by decide : (0x00800000 : Word).toNat < 2 ^ 31), hlim,
      le_refl _, hsize⟩
  | put _ sym k hmode hthr hsize hturns hroom =>
    have hready := hs.encoderReady hmode
    obtain ⟨-, -, -, hwend, hwsize⟩ := hs.encoder hmode
    have hput := encputRule_done hmode hthr hready.limit hsize hturns (by omega)
    have hdown := (encputRule_frame hput).down
    obtain ⟨-, -, -, -, hready', -⟩ := hready.after_put (hready.freq_pos hthr) hput
    exact fun _ => ⟨hready'.low, hready'.high, hready'.limit, hdown.trans hwend, hwsize⟩
  | recounted => exact nofun
  | normed => exact nofun
  | encFlushed => exact nofun
  | decOpened => exact nofun
  | got _ _ _ hmode => exact fun henc => nomatch hmode.symm.trans henc
  | nop | described | mapped | stored => exact hs.encoder

theorem Effect.decoderBounds {j : Instr} {s t : State} (h : Effect j s t) (hs : EngineInv s) : t.decoderBounds := by
  cases h with
  | decOpened _ src len _ hsize hlen =>
    have hlegal := wmemSize_le_of_legal hs.params
    have hrptr : (src + 4).toNat = src.toNat + 4 := by bv_omega
    have hrlim : (src + len).toNat = src.toNat + len.toNat := by bv_omega
    intro _
    show (src + 4).toNat ≤ (src + len).toNat ∧ (src + len).toNat ≤ s.params.wmemSize
    omega
  | got _ _ _ _ hrptr hsize => exact fun _ => ⟨hrptr, hsize⟩
  | recounted => exact nofun
  | normed => exact nofun
  | encFlushed => exact nofun
  | encOpened => exact nofun
  | put _ _ _ hmode => exact fun hdec => nomatch hmode.symm.trans hdec
  | nop | described | mapped | stored => exact hs.decoder

theorem Effect.engineInv {j : Instr} {s t : State} (h : Effect j s t) (hs : EngineInv s) : EngineInv t where
  params := h.engineOnly.params_eq ▸ hs.params
  memory := h.memoryOk hs.memory
  tables := h.tablesCoherent hs.tables
  modes := h.modeGuards hs.modes
  encoder := h.encoderBounds hs
  decoder := h.decoderBounds hs

theorem Chain.engineInv {i : Instr} {s t : State} (h : Chain i s t) (hs : EngineInv s) : EngineInv t :=
  h.keeps (fun _ _ _ _ heffect => heffect.engineInv) hs

theorem EngineInv.not_pointersOutside {s : State} (h : EngineInv s) : ¬ PointersOutside s := by
  rintro (⟨hmode, hout⟩ | ⟨hmode, hout⟩)
  · exact hout ⟨(h.encoderReady hmode).limit, (h.encoderReady hmode).size⟩
  · exact hout (h.decoder hmode)

theorem EngineInv.ruleOf_ne_stuck {s : State} (h : EngineInv s) (i : Instr) (o : Operands) (p : Word) :
    ruleOf i o s ≠ .stuck p := by
  intro hstuck
  obtain ⟨u, hchain, hout⟩ := pointersOutside_of_ruleOf_stuck hstuck
  exact (hchain.engineInv h).not_pointersOutside hout

/-! ### Faults and completion -/

theorem validity_leaveUnspecified (i : Instr) (c : FaultCode) (o : Operands) {s : State}
    (hlut : s.lutv = true → s.cumv = true) (hsym : s.symv = true → s.cumv = true) :
    ((leaveUnspecified i c o s).lutv = true → (leaveUnspecified i c o s).cumv = true) ∧
      ((leaveUnspecified i c o s).symv = true → (leaveUnspecified i c o s).cumv = true) := by
  cases i with
  | norm =>
    rw [leaveUnspecified]
    split <;> exact ⟨nofun, nofun⟩
  | symtab => exact ⟨hlut, nofun⟩
  | encode | decode => exact ⟨nofun, nofun⟩
  | encput | decget =>
    rw [leaveUnspecified]
    split <;> exact ⟨hlut, hsym⟩
  | _ => exact ⟨hlut, hsym⟩

theorem engineInv_takeFault {i : Instr} {o : Operands} {s : State} {c : FaultCode} {info : Word}
    (hraised : ruleOf i o s = .raised c info) (hs : EngineInv s) : EngineInv (takeFault i c info o s) := by
  have hmemory := memoryOk_takeFault hraised hs.memory
  have htables := tablesCoherent_takeFault (i := i) (o := o) (c := c) (info := info) hs.tables
  obtain ⟨hparams, -⟩ := takeFault_frame i c info o s
  cases hc : faultPrecise c with
  | true =>
    rw [takeFault_precise i c info o s hc]
    exact ⟨hs.params, hs.memory, hs.tables, hs.modes, hs.encoder, hs.decoder⟩
  | false =>
    have hmode := takeFault_abortive_mode i c info o s hc
    obtain ⟨-, -, hlut, hsym⟩ := hs.modes
    obtain ⟨hlut', hsym'⟩ := validity_leaveUnspecified i c o hlut hsym
    rw [takeFault_abortive i c info o s hc] at *
    exact .of_idle (by rw [hparams]; exact hs.params) hmemory htables hlut' hsym' hmode

/-! ### The handshake -/

/-- A pending command ends with the handshake in order: DONE or FAULT, not both (60_exceptions.md R273). -/
def HandshakeEnded (t : State) : Prop :=
  t.latch = none ∧ (t.done = true ∧ t.fault = none ∨ t.done = false ∧ t.fault ≠ none)

theorem HandshakeEnded.handshakeOk {t : State} (h : HandshakeEnded t) : t.handshakeOk := by
  obtain ⟨hlatch, hend⟩ := h
  refine ⟨fun hbusy => absurd hbusy (by simp [State.busy, hlatch]), fun hdone => ?_⟩
  obtain ⟨-, hfault⟩ | ⟨hnot, -⟩ := hend
  · exact hfault
  · exact absurd (hnot.symm.trans hdone) (by decide)

theorem handshakeEnded_recordFault {s : State} (hdone : s.done = false) (c : FaultCode) (info : Word) :
    HandshakeEnded (recordFault c info s) :=
  ⟨rfl, .inr ⟨hdone, nofun⟩⟩

theorem handshakeEnded_takeFault {s : State} (hdone : s.done = false) (i : Instr) (c : FaultCode) (info : Word)
    (o : Operands) : HandshakeEnded (takeFault i c info o s) := by
  obtain ⟨-, -, -, hdone', hfault, -, -, -, -, -, -, hlatch, -⟩ := takeFault_frame i c info o s
  exact ⟨hlatch, .inr ⟨hdone'.trans hdone, by rw [hfault]; nofun⟩⟩

/-- With the invariant a pending command ends, by its rule, by the fault its rule raised, or by BAD_CMD. -/
theorem engineTurn_of_pending {s : State} (h : s.Inv) (hbusy : s.busy = true) :
    ∃ t, engineTurn s = .next t ∧ EngineInv t ∧ HandshakeEnded t := by
  obtain ⟨hinv, hshake⟩ := inv_iff.1 h
  obtain ⟨hdone, hfault⟩ := hshake.1 hbusy
  obtain ⟨hl, -⟩ | ⟨l, e, -, -, hturn⟩ | ⟨l, i, hl, -, hturn⟩ := engineTurn_cases s
  · exact absurd hbusy (by simp [State.busy, hl])
  · exact ⟨_, hturn, ⟨hinv.params, hinv.memory, hinv.tables, hinv.modes, hinv.encoder, hinv.decoder⟩,
      handshakeEnded_recordFault hdone _ _⟩
  · rw [hturn, exec_eq_runCommand]
    cases hr : ruleOf i l.ops s with
    | done u =>
      have hchain := chain_of_ruleOf_done hr
      have hu := hchain.engineInv hinv
      have hkeep : u.fault = s.fault := by rw [hchain.engineOnly]
      exact ⟨_, runCommand_done i _ s u l hl hr, ⟨hu.params, hu.memory, hu.tables, hu.modes, hu.encoder, hu.decoder⟩,
        rfl, .inl ⟨rfl, hkeep.trans hfault⟩⟩
    | raised c info =>
      exact ⟨_, runCommand_raised i _ s l c info hl hr, engineInv_takeFault hr hinv,
        handshakeEnded_takeFault hdone i c info l.ops⟩
    | stuck p => exact absurd hr (hinv.ruleOf_ne_stuck i l.ops p)

theorem engineTurn_of_inv {s : State} (h : s.Inv) : ∃ t, engineTurn s = .next t ∧ t.Inv := by
  cases hbusy : s.busy with
  | true =>
    obtain ⟨t, hturn, hinv, hend⟩ := engineTurn_of_pending h hbusy
    exact ⟨t, hturn, inv_iff.2 ⟨hinv, hend.handshakeOk⟩⟩
  | false => exact ⟨s, engineTurn_idle s ((not_busy_iff s).1 hbusy), h⟩

/-! ### The host -/

theorem HostEffect.engineInv {s t : State} (h : HostEffect s t) (hs : EngineInv s) : EngineInv t := by
  have hmemory := h.memoryOk hs.memory
  have htables := h.tablesCoherent hs.tables
  cases h with
  | recounted => exact .of_idle hs.params hmemory htables nofun nofun rfl
  | _ => exact ⟨hs.params, hmemory, htables, hs.modes, hs.encoder, hs.decoder⟩

theorem HostEffect.handshakeOk {s t : State} (h : HostEffect s t) (hs : s.handshakeOk) : t.handshakeOk := by
  obtain ⟨hpending, hdone⟩ := hs
  cases h with
  | accepted _ _ hfault => exact ⟨fun _ => ⟨rfl, hfault⟩, nofun⟩
  | cleared v =>
    refine ⟨fun hbusy => ?_, fun hd => ?_⟩
    · obtain ⟨hd, hf⟩ := hpending hbusy
      simp [hd, hf]
    · rw [clearStatus_done, Bool.and_eq_true] at hd
      simp [hdone hd.1]
  | _ => exact ⟨hpending, hdone⟩

theorem HostEffect.inv {s t : State} (h : HostEffect s t) (hs : s.Inv) : t.Inv := by
  obtain ⟨hinv, hshake⟩ := inv_iff.1 hs
  exact inv_iff.2 ⟨h.engineInv hinv, h.handshakeOk hshake⟩

/-! ### The step -/

theorem inv_afterReset {p : Params} (h : p.legal = true) (n : Nat) : (State.afterReset p n).Inv :=
  inv_iff.2 ⟨.of_idle h ⟨rfl, rfl⟩ (tablesCoherent_of_invalid rfl rfl rfl) nofun nofun rfl, nofun, nofun⟩

/-- Settles O58: after reset no table claims anything, no coder is open and nothing is pending. -/
theorem resetMeetsTheInvariant : Obligations.ResetMeetsTheInvariant := inv_afterReset (by decide) 0

/-- The invariant says nothing of the model's own fields. -/
theorem inv_setInbox_setRdata {s : State} (evs : List Event) (r : Option Word) (h : s.Inv) :
    State.Inv { s with inbox := evs, rdata := r } :=
  ⟨h.params, h.memory, h.tables, h.modes, h.encoder, h.decoder, h.handshake⟩

theorem inv_resetPulse {s : State} (h : s.Inv) : (resetPulse s).Inv :=
  inv_setInbox_setRdata s.inbox s.rdata (inv_afterReset h.params s.draws)

/-- Settles O57: the engine's turn and the reset pulse always have a next state, an access has one or is refused, and each
keeps the invariant. -/
theorem stepKeepsTheInvariant : Obligations.StepKeepsTheInvariant := by
  intro s hs
  cases h : s.inbox with
  | nil => exact .inl (step_engine s h ▸ engineTurn_of_inv hs)
  | cons e rest =>
    have hu : State.Inv { s with inbox := rest } := inv_setInbox_setRdata rest s.rdata hs
    rw [step_event s e rest h]
    cases e with
    | access a =>
      obtain ⟨t, ht⟩ | hrefused := hostAccess_cases a { s with inbox := rest }
      · exact .inl ⟨t, ht, (hostEffect_of_hostAccess ht).inv hu⟩
      · exact .inr ⟨a, hrefused⟩
    | engine => exact .inl (engineTurn_of_inv hu)
    | reset => exact .inl ⟨_, rfl, inv_resetPulse hu⟩

/-! ### A pending command completes -/

theorem core_run_succ {s t : State} (h : step s = .next t) (n : Nat) :
    Sys2Proof.core.run (n + 1) s = Sys2Proof.core.run n t := by
  have hstep : Sys2Proof.core.step s = .next t := h
  simp only [Host.Core.run, hstep]

/-- At most `n` steps lead to BUSY = 0 with DONE or FAULT. -/
def EndsWithin (n : Nat) (s : State) : Prop :=
  ∃ k t, k ≤ n ∧ Sys2Proof.core.run k s = .next t ∧ t.busy = false ∧ (t.done = true ∨ t.fault ≠ none)

theorem EndsWithin.of_step {n : Nat} {s t : State} (h : step s = .next t) (ht : EndsWithin n t) :
    EndsWithin (n + 1) s := by
  obtain ⟨k, u, hk, hrun, hend⟩ := ht
  exact ⟨k + 1, u, by omega, (core_run_succ h k).trans hrun, hend⟩

theorem endsWithin_of_engineTurn {s u : State} (h : step s = engineTurn u) (hu : u.Inv) (hbusy : u.busy = true)
    (n : Nat) : EndsWithin (n + 1) s := by
  obtain ⟨t, hturn, -, hlatch, hend⟩ := engineTurn_of_pending hu hbusy
  exact ⟨1, t, by omega, core_run_succ (h.trans hturn) 0, (not_busy_iff t).2 hlatch, hend.imp And.left And.right⟩

theorem hostAccess_of_allowed {s : State} {a : Access} (h : eventAllowed s.params.wmemSize (.access a)) :
    ∃ t, hostAccess a s = .next t := by
  cases a with
  | read w off => exact ⟨_, stepEvent_read h⟩
  | write w off v => exact ⟨_, stepEvent_write v h⟩

theorem endsWithin_of_pending {s : State} (hs : s.Inv) (hbusy : s.busy = true)
    (hallowed : ∀ e ∈ s.inbox, eventAllowed s.params.wmemSize e) : EndsWithin (s.inbox.length + 1) s := by
  induction h : s.inbox generalizing s with
  | nil => exact endsWithin_of_engineTurn (step_engine s h) hs hbusy 0
  | cons e rest ih =>
    rw [h] at hallowed
    obtain ⟨he, hrest⟩ := List.forall_mem_cons.1 hallowed
    have hevent := step_event s e rest h
    have hu : State.Inv { s with inbox := rest } := inv_setInbox_setRdata rest s.rdata hs
    cases e with
    | access a =>
      obtain ⟨t, ht⟩ := hostAccess_of_allowed (s := { s with inbox := rest }) he
      have heffect := hostEffect_of_hostAccess ht
      have hsame := heffect.sameForEngine_of_busy hbusy
      have hinbox : t.inbox = rest := by rw [hsame]
      have hparams : t.params = s.params := by rw [hsame]
      have hlatch : t.latch = s.latch := by rw [hsame]
      refine .of_step (hevent.trans ht) (ih (heffect.inv hu) ?_ ?_ hinbox)
      · rwa [State.busy, hlatch]
      · rwa [hinbox, hparams]
    | engine => exact endsWithin_of_engineTurn hevent hu hbusy _
    | reset => exact he.elim

/-- Settles O59: each access of the inbox leaves the command pending and the invariant in force, until the engine has the
turn. -/
theorem pendingCommandCompletes : Obligations.PendingCommandCompletes := fun _ => endsWithin_of_pending

end Sys2Proof.Claims
end

section
/-! PROOF. DECODE of a long enough stream (42_rans_codec.md R160, 43_block_codec.md R184, R185): from a STATE of at least
LOWER a DECGET takes at most 2 bytes and leaves such a STATE again. -/

namespace Sys2Proof.Claims

open Sys2Proof.Machine

/-! ### One symbol -/

theorem shiftIn_lt {m : Memory} {x p : Nat} (hx : x < 2 ^ 32) (k : Nat) : shiftIn m x p k < 2 ^ 32 := by
  cases k with
  | zero => exact hx
  | succ k => exact Nat.mod_lt _ (by decide)

/-- The loop of R159 makes `k` turns: it stops at LOWER, and not before. -/
structure GetTurns (m : Memory) (x p k : Nat) : Prop where
  stops : 2 ^ 23 ≤ shiftIn m x p k
  runs : ∀ j, j < k → shiftIn m x p j < 2 ^ 23

/-- From `2 ^ 9` on, two bytes lift any value to LOWER. -/
theorem exists_getTurns (m : Memory) {x : Nat} (p : Nat) (hx : 2 ^ 9 ≤ x) : ∃ k, k ≤ 2 ∧ GetTurns m x p k := by
  have hone : x < 2 ^ 23 → 2 ^ 17 ≤ shiftIn m x p 1 := fun hlt => by
    have hb := (readByte m (p + 0)).isLt
    simp only [shiftIn]
    omega
  have htwo : shiftIn m x p 1 < 2 ^ 23 → 2 ^ 17 ≤ shiftIn m x p 1 → 2 ^ 23 ≤ shiftIn m x p 2 := fun hlt hle => by
    have hb := (readByte m (p + 1)).isLt
    rw [shiftIn]
    omega
  have hex : ∃ k, 2 ^ 23 ≤ shiftIn m x p k := by
    by_contra hnot
    simp only [not_exists, Nat.not_le] at hnot
    exact Nat.not_lt.2 (htwo (hnot 1) (hone (hnot 0))) (hnot 2)
  refine ⟨Nat.find hex, ?_, Nat.find_spec hex, fun j hj => Nat.not_le.1 (Nat.find_min hex hj)⟩
  by_contra hk
  have h0 : shiftIn m x p 0 < 2 ^ 23 := Nat.not_le.1 (Nat.find_min hex (by omega))
  have h1 := Nat.not_le.1 (Nat.find_min hex (show 1 < Nat.find hex by omega))
  have h2 := Nat.not_le.1 (Nat.find_min hex (show 2 < Nat.find hex by omega))
  exact Nat.not_lt.2 (htwo h1 (hone h0)) h2

/-- A decoder over the tables of a nonempty model, in a STATE of at least LOWER. -/
structure DecoderReady (u : State) : Prop where
  mode : u.mode = .dec
  tables : u.tablesCoherent
  cumv : u.cumv = true
  lutv : u.lutv = true
  total : u.total ≠ 0
  low : 2 ^ 23 ≤ u.state.toNat
  size : u.rlim.toNat ≤ u.params.wmemSize

theorem DecoderReady.storedNormal {u : State} (h : DecoderReady u) : StoredNormal u.cum := by
  obtain ⟨hpos, hcum⟩ := cum_eq_storeCum_scanned (h.tables.1 h.cumv) h.total
  exact ⟨_, normalTable_scanned hpos, hcum⟩

/-- The symbol of the slot owns it and has a count (R139). -/
theorem DecoderReady.lookedUp_owns {u : State} (h : DecoderReady u) :
    owns u.cum (lookedUp u).toNat (u.state.toNat % 2 ^ 14) ∧ entry u.cnt (lookedUp u).toNat ≠ 0 := by
  obtain ⟨hown, hcount, -⟩ := lutOwnersHaveCounts u h.tables h.cumv h.lutv h.total (u.state.toNat % 2 ^ 14)
    (Nat.mod_lt _ (by decide))
  exact ⟨hown, hcount⟩

/-- R160's bound: a width of at least 1 keeps the state's upper part. -/
theorem DecoderReady.le_advanced {u : State} (h : DecoderReady u) : 2 ^ 9 ≤ advanced u (lookedUp u) := by
  obtain ⟨hstart, hend⟩ := h.lookedUp_owns.1
  have hlow := h.low
  have hmul : 1 * (u.state.toNat / 2 ^ 14) ≤
      (endOf u.cum (lookedUp u).toNat - startOf u.cum (lookedUp u).toNat) * (u.state.toNat / 2 ^ 14) :=
    Nat.mul_le_mul_right _ (by omega)
  unfold advanced
  omega

/-- What a DECGET makes of the decoder: the looked-up symbol, at most 2 bytes taken, STATE still at least LOWER. -/
theorem DecoderReady.exists_get {u : State} (h : DecoderReady u) (hroom : u.rptr.toNat + 2 ≤ u.rlim.toNat) :
    ∃ x rptr, decgetRule u = .done { u with state := x, rptr := rptr, result := lookedUp u } ∧ 2 ^ 23 ≤ x.toNat ∧
      u.rptr.toNat ≤ rptr.toNat ∧ rptr.toNat ≤ u.rptr.toNat + 2 := by
  obtain ⟨k, hk, hturns⟩ := exists_getTurns u.wmem u.rptr.toNat h.le_advanced
  obtain ⟨-, hscale⟩ := h.storedNormal.startOf_add_freq (lookedUp u).isLt
  have hcum0 : entry u.cum 256 ≠ 0 := by
    have := h.storedNormal.toNat_entry_last
    bv_omega
  have hx := shiftIn_lt (m := u.wmem) (p := u.rptr.toNat) (advanced_lt (s := u) hscale) k
  have hrptr : (u.rptr + BitVec.ofNat 32 k).toNat = u.rptr.toNat + k := by
    have := u.rlim.isLt
    bv_omega
  refine ⟨_, _, decgetRule_done h.mode hcum0 (by omega) h.size (by omega) hturns.stops hturns.runs, ?_, ?_, ?_⟩
  · rw [BitVec.toNat_ofNat, Nat.mod_eq_of_lt hx]
    exact hturns.stops
  · omega
  · omega

/-! ### Any number of symbols -/

/-- What `n` DECGETs from `u` leave: STATE `x`, RPTR `p`, RESULT `r` and the symbols `bs`. -/
structure Decodes (u : State) (n : Nat) (x p : Word) (r : Byte) (bs : List Byte) : Prop where
  length : bs.length = n
  counted : ∀ b ∈ bs, entry u.cnt b.toNat ≠ 0
  taken : u.rptr.toNat ≤ p.toNat ∧ p.toNat ≤ u.rptr.toNat + 2 * n
  none : n = 0 → x = u.state ∧ r = u.result
  last : 0 < n → 2 ^ 23 ≤ x.toNat ∧ r = bs.getD (n - 1) 0

theorem DecoderReady.decoded {u : State} {n dst : Nat} {x p : Word} {r : Byte} {bs : List Byte} (h : DecoderReady u)
    (hd : Decodes u n x p r bs) : DecoderReady (decoded x p r dst bs u) where
  mode := h.mode
  tables := h.tables
  cumv := h.cumv
  lutv := h.lutv
  total := h.total
  low := by
    show 2 ^ 23 ≤ x.toNat
    obtain h0 | hpos := Nat.eq_zero_or_pos n
    · exact (hd.none h0).1 ▸ h.low
    · exact (hd.last hpos).1
  size := h.size

theorem exists_decodes {u : State} {n : Nat} (dst : Nat) (h : 0 < n → DecoderReady u)
    (hroom : u.rptr.toNat + 2 * n ≤ u.rlim.toNat) :
    ∃ x p r bs, decgetsUp n dst u = .done (decoded x p r dst bs u) ∧ Decodes u n x p r bs := by
  induction n with
  | zero => exact ⟨u.state, u.rptr, u.result, [], rfl, rfl, nofun, ⟨le_refl _, le_refl _⟩, fun _ => ⟨rfl, rfl⟩, nofun⟩
  | succ n ih =>
    have hready := h n.succ_pos
    obtain ⟨x, p, r, bs, hloop, hd⟩ := ih (fun _ => hready) (by omega)
    obtain ⟨hlow, hhigh⟩ := hd.taken
    have hready' := hready.decoded (dst := dst) hd
    obtain ⟨y, q, hget, hy, hqlow, hqhigh⟩ := hready'.exists_get (show p.toNat + 2 ≤ u.rlim.toNat by omega)
    change p.toNat ≤ _ at hqlow
    change _ ≤ p.toNat + 2 at hqhigh
    refine ⟨y, q, lookedUp (decoded x p r dst bs u), bs ++ [lookedUp (decoded x p r dst bs u)], ?_, ?_, ?_, ⟨by omega, by omega⟩, nofun, fun _ => ⟨hy, ?_⟩⟩
    · rw [decgetsUp_succ_last, hloop, andThen_done, hget, andThen_done, ← hd.length, storeResult_decoded]
    · rw [List.length_append, hd.length, List.length_singleton]
    · simp only [List.mem_append, List.mem_singleton]
      rintro b (hb | rfl)
      · exact hd.counted b hb
      · exact hready'.lookedUp_owns.2
    · simp [hd.length]

/-! ### The command -/

/-- The number of symbols of a model, as TOTAL holds it. -/
def symbolCount (s : State) : Word := BitVec.ofNat 32 (countSum s.cnt 256)

theorem toNat_symbolCount {s : State} (h : countSum s.cnt 256 < 2 ^ 32) :
    (symbolCount s).toNat = countSum s.cnt 256 := by
  rw [symbolCount, BitVec.toNat_ofNat, Nat.mod_eq_of_lt h]

theorem tablesCoherent_decoderOpened (o : Operands) {s : State} (h : countSum s.cnt 256 < 2 ^ 32) :
    (decoderOpened o (symbolCount s) s).tablesCoherent :=
  ⟨fun _ => cumCoherent_rebuilt (s := s) (by omega), fun _ => rfl, fun _ => rfl⟩

theorem toNat_memRead32 (m : Memory) (a : Nat) : (memRead32 m a).toNat = leValue (loadBytes m a 4) := by
  have hlt : leValue (loadBytes m a 4) < 2 ^ 32 := by simpa using leValue_lt (loadBytes m a 4)
  rw [memRead32, BitVec.toNat_ofNat, Nat.mod_eq_of_lt hlt]

/-- Settles O28: DECODE's loop starts ready where the model is not empty, with 2 bytes of input for each symbol. -/
theorem decodeCompletesOnLongStreams : Obligations.DecodeCompletesOnLongStreams := by
  intro s l hl hlegal hok hcap hlen hlow
  have hsize := wmemSize_le_of_legal hlegal
  obtain ⟨hsrc, -, -⟩ := id hok
  have hfits : countSum s.cnt 256 < 2 ^ 32 := hcap.trans_lt l.ops.a3.isLt
  have hn := toNat_symbolCount hfits
  have hrptr : (l.ops.a0 + 4).toNat = l.ops.a0.toNat + 4 := by bv_omega
  have hrlim : (l.ops.a0 + l.ops.a1).toNat = l.ops.a0.toNat + l.ops.a1.toNat := by bv_omega
  have hready : 0 < (symbolCount s).toNat → DecoderReady (decoderOpened l.ops (symbolCount s) s) := fun hpos => {
    mode := rfl
    tables := tablesCoherent_decoderOpened l.ops hfits
    cumv := rfl
    lutv := rfl
    total := fun h0 => by
      change symbolCount s = 0 at h0
      rw [h0] at hpos
      exact absurd hpos (by decide)
    low := (toNat_memRead32 s.wmem l.ops.a0.toNat).symm ▸ hlow (hn ▸ hpos)
    size := by
      show (l.ops.a0 + l.ops.a1).toNat ≤ s.params.wmemSize
      omega }
  obtain ⟨x, p, r, bs, hloop, hd⟩ := exists_decodes l.ops.a2.toNat hready
    (show (l.ops.a0 + 4).toNat + _ ≤ (l.ops.a0 + l.ops.a1).toNat by omega)
  have hrule := decodeRule_eq_decgetsUp hok hn.symm (by omega) (by omega)
  rw [hloop, andThen_done, decoded_decoderOpened] at hrule
  have hbyte : ∀ {j}, j < bs.length →
      readByte (storeBytes s.wmem l.ops.a2.toNat bs) (l.ops.a2.toNat + j) = bs.getD j 0 :=
    fun hj => readByte_storeBytes_add _ _ hj
  have hlength : bs.length = countSum s.cnt 256 := hd.length.trans hn
  obtain ⟨hplow, hphigh⟩ := hd.taken
  change (l.ops.a0 + 4).toNat ≤ p.toNat at hplow
  change p.toNat ≤ (l.ops.a0 + 4).toNat + _ at hphigh
  refine ⟨_, exec_completes hl hrule, rfl, tablesCoherent_decoderOpened l.ops hfits, hn, ?_, ?_, ?_, ?_, ?_, ?_⟩
  · show _ ≤ p.toNat
    omega
  · show p.toNat ≤ (l.ops.a0 + l.ops.a1).toNat
    omega
  · intro h0
    obtain ⟨hx, hr⟩ := hd.none (hn.trans h0)
    exact ⟨hr, (congrArg BitVec.toNat hx).trans (toNat_memRead32 s.wmem l.ops.a0.toNat)⟩
  · intro hpos
    obtain ⟨hx, hr⟩ := hd.last (hn ▸ hpos)
    refine ⟨?_, hx⟩
    rw [Nat.add_sub_assoc hpos]
    exact hr.trans (hn ▸ (hbyte (by omega)).symm)
  · intro j hj
    refine (congrArg (fun b : Byte => entry s.cnt b.toNat ≠ 0) (hbyte (by omega))).mpr ?_
    rw [List.getD_eq_getElem _ _ (by omega)]
    exact hd.counted _ (List.getElem_mem _)
  · intro a ha
    exact readByte_storeBytes_outside _ _ _ _ (hlength ▸ ha)

end Sys2Proof.Claims
end

section
/-! PROOF. The layout of a packaged stream (48_container.md R230): each field stands where those before it end. -/

namespace Sys2Proof.Claims

open Sys2Proof.Machine

@[simp] theorem length_le32 (v : Nat) : (le32 v).length = 4 := by
  simp [le32, leBytes]

theorem leValue_leBytes_four (v : Word) : leValue (leBytes v 4) = v.toNat := by
  have := v.isLt
  simp [leBytes, List.range_succ, leValue, Nat.shiftRight_eq_div_pow]
  omega

theorem leValue_le32 {v : Nat} (h : v < 2 ^ 32) : leValue (le32 v) = v := by
  rw [le32, leValue_leBytes_four, BitVec.toNat_ofNat, Nat.mod_eq_of_lt h]

/-- What remains of a stream from `k` on, read as the field `b` and the fields `c` after it. -/
theorem drop_append_of_drop_eq {α : Type} {l b c : List α} {k : Nat} (h : l.drop k = b ++ c) :
    l.drop (k + b.length) = c := by
  rw [← List.drop_drop, h, List.drop_left]

theorem take_of_drop_eq {α : Type} {l b c : List α} {k : Nat} (h : l.drop k = b ++ c) :
    (l.drop k).take b.length = b := by
  rw [h, List.take_left]

/-- Settles O60: each field opens what remains behind the fields before it. -/
theorem packagedStreamLayout : Obligations.PackagedStreamLayout := by
  intro f20 f21 s2 s1 s0 _ _ _ h1 h0 b
  have hb : b.drop 3 = s2 ++ (le32 s1.length ++ (s1 ++ (le32 s0.length ++ s0))) := by
    simp [b, assemble]
  have hlen1 := drop_append_of_drop_eq hb
  have hs1 : b.drop (7 + s2.length) = _ := Nat.add_right_comm 3 4 _ ▸ length_le32 s1.length ▸ drop_append_of_drop_eq hlen1
  have hlen0 := drop_append_of_drop_eq hs1
  have hs0 := drop_append_of_drop_eq hlen0
  rw [length_le32] at hs0
  refine ⟨?_, rfl, take_of_drop_eq hb, ?_, take_of_drop_eq hs1, ?_, ?_⟩
  · simp [b, assemble]
    omega
  · rw [← length_le32 s1.length, take_of_drop_eq hlen1, leValue_le32 h1]
  · rw [← length_le32 s0.length, take_of_drop_eq hlen0, leValue_le32 h0]
  · rw [← hs0]
    congr 1
    omega

end Sys2Proof.Claims
end
